-- ==== Sys2Proof/Word.lean ====
section
/-! DEFINITION. The values of Robus FAB: bytes, 16-bit fields, 9-bit counters (spec R8, R20), the addressing
modes and the message (R71, R73), and the directions of the line (R26). -/

namespace Sys2Proof

/-- A byte: 8 bits, unsigned (R8). -/
abbrev Byte := BitVec 8

/-- A 16-bit field of the header (R70). -/
abbrev Half := BitVec 16

/-- A 9-bit counter or length (R20, D23). -/
abbrev Count := BitVec 9

/-- The five names of `target_mode` in the order the source lists them (R71). -/
inductive Mode where
  | broadcast
  | byId
  | byType
  | byGroup
  | sniffer
  deriving DecidableEq, Repr

/-- A message value (R73). `payload_size` is no component: it is the payload's length.
DESIGN CHOICE (log 8): `command` has 16 bits here; with `CMD_BYTES = 1` a well-formed message keeps it below 256. -/
structure Message where
  mode    : Mode
  target  : Half
  source  : Half
  command : Half
  payload : List Byte
  deriving DecidableEq, Repr

/-- The direction of the line driver (R26). -/
inductive Dir where
  | receive
  | transmit
  deriving DecidableEq, Repr

end Sys2Proof
end

