-- ==== Sys2Proof/Config.lean ====
section
/-! DEFINITION. What an instance of the block fixes (spec R7: `CMD_BYTES` and the sizes that follow from it), and the
free values: what the spec leaves unspecified has no body here, so that no proof can see it. -/

namespace Sys2Proof

/-- The two values of the parameter `CMD_BYTES`: the width of `command` in bytes (R7, D3). -/
inductive CmdBytes where
  | one
  | two
  deriving DecidableEq, Repr

/-- The default instance (R7, D3: "default 1"). -/
def CmdBytes.default : CmdBytes := .one

/-- `CMD_BYTES` as a number (R7). -/
def CmdBytes.count : CmdBytes → Nat
  | .one => 1
  | .two => 2

/-- `HEADER_SIZE = 6 + CMD_BYTES` (R7, R70). -/
def CmdBytes.headerSize (c : CmdBytes) : Nat := 6 + c.count

/-- `MAX_PAYLOAD = 255` (R7, D6). -/
def maxPayload : Nat := 255

/-- `BUF_SIZE = HEADER_SIZE + MAX_PAYLOAD` (R7): 262 or 263. -/
def CmdBytes.bufSize (c : CmdBytes) : Nat := c.headerSize + maxPayload

/-- The two frame buffers of the block (R35): `buf` and `txb`. -/
inductive Buffer where
  | buf
  | txb
  deriving DecidableEq, Repr

/-- FREE VALUE (log 4). What a buffer byte holds that no operation has written since the last `RST`: the contents are
unspecified (R20, R33, S2). It depends on how many `RST` came before, on the buffer and on the index. -/
opaque Config.unspecifiedByte : Nat → Buffer → Nat → Byte

/-- FREE VALUE (log 12). Whether a payload staging write is seen by a `SND` performed in the same cycle: R87 and R156
give no order of the two. It depends on how many such ties came before. -/
opaque Config.stagingSeenBySend : Nat → Bool

end Sys2Proof
end

