-- ==== Sys2Proof/Syntax.lean ====
section
/-! DEFINITION. The operations the block accepts: one constructor per row of spec/opcode_table.json (spec R81). -/

namespace Sys2Proof

/-- The six operations (R81). -/
inductive Instr where
  /-- `RST`: reset (R140). -/
  | rst
  /-- `RXB b`: a byte arrives (R100). -/
  | rxb (b : Byte)
  /-- `TMO`: the idle timer fires (R103). -/
  | tmo
  /-- `SND m`: begin a local send (R121). -/
  | snd (m : Message)
  /-- `TXB`: the sink accepts the presented byte (R122). -/
  | txb
  /-- `TRN`: turn the line around (R123). -/
  | trn
  deriving DecidableEq, Repr

end Sys2Proof
end

