-- ==== Sys2Proof/WellFormed.lean ====
section
/-! DEFINITION. Which messages and operations are well-formed (spec R73, R78). -/

namespace Sys2Proof

/-- The four modes that are valid on the wire (R71). -/
def Mode.onWire : Mode → Bool
  | .broadcast => true
  | .byId => true
  | .byType => true
  | .byGroup => true
  | .sniffer => false

/-- The `command` of an instance has `8 * CMD_BYTES` bits (R70, R73). -/
def Message.commandFits (c : CmdBytes) (m : Message) : Bool :=
  decide (m.command.toNat < 2 ^ (8 * c.count))

/-- Well-formed for sending (R73): a wire mode and at most `MAX_PAYLOAD` payload bytes; and, since this model holds
`command` in 16 bits, a command that fits the instance's width (log 8). -/
def Message.wf (c : CmdBytes) (m : Message) : Bool :=
  m.mode.onWire && decide (m.payload.length ≤ maxPayload) && m.commandFits c

/-- A well-formed operation: only the operand of `SND` can be ill-formed (R78, R84). -/
def Instr.wf (c : CmdBytes) : Instr → Bool
  | .rst => true
  | .rxb _ => true
  | .tmo => true
  | .snd m => m.wf c
  | .txb => true
  | .trn => true

end Sys2Proof
end

