-- ==== Sys2Proof/Decode.lean ====
section
/-! DEFINITION. The encodings (spec 30_encoding.md): the wire frame with `serialize` and `deserialize` (R70 to R78), the
operation table (R82, R83), the trace decoder, which rejects by name (R84), the encoder, and `decodeTableWord`. -/

namespace Sys2Proof

/-! ### Bytes and 16-bit fields (R8, R9, R50) -/

/-- `lo8(v) = v[7:0]` (R9). -/
def lo8 (v : Half) : Byte := v.extractLsb' 0 8

/-- `hi8(v) = v[15:8]` (R9). -/
def hi8 (v : Half) : Byte := v.extractLsb' 8 8

/-- `le16(lo, hi) = {hi, lo}`, "that is `lo + 256 * hi`" (R9). -/
def le16 (lo hi : Byte) : Half := BitVec.ofNat 16 (lo.toNat + 256 * hi.toNat)

/-- Byte `i` of a byte list (R8); 0 past its end, which no rule reads. -/
def byteAt (F : List Byte) (i : Nat) : Byte := F.getD i 0

/-! ### The addressing modes on the wire (R71) -/

/-- The numeric code of a mode (R71). -/
def Mode.code : Mode → Byte
  | .broadcast => 0x00
  | .byId => 0x01
  | .byType => 0x02
  | .byGroup => 0x03
  | .sniffer => 0x04

/-- The mode a code names, Sniffer included (R71); codes 05 to FF name none. -/
def Mode.named (b : Byte) : Option Mode :=
  if b = 0x00 then some .broadcast
  else if b = 0x01 then some .byId
  else if b = 0x02 then some .byType
  else if b = 0x03 then some .byGroup
  else if b = 0x04 then some .sniffer
  else none

/-- The mode of a code that is valid on the wire: 00 to 03 only (R71, R75). -/
def Mode.ofWire (b : Byte) : Option Mode :=
  if 0x03 < b then none else Mode.named b

/-! ### serialize and deserialize (R70, R72, R74, R75) -/

/-- The bytes of the `command` field, low byte first (R72, R74). -/
def commandBytes (c : CmdBytes) (v : Half) : List Byte :=
  match c with
  | .one => [lo8 v]
  | .two => [lo8 v, hi8 v]

/-- The `command` field read back from a frame (R72). -/
def commandOf (c : CmdBytes) (F : List Byte) : Half :=
  match c with
  | .one => (byteAt F 5).setWidth 16
  | .two => le16 (byteAt F 5) (byteAt F 6)

/-- The header of a message: the first `HEADER_SIZE` bytes of its frame (R70, R74). -/
def headerBytes (c : CmdBytes) (m : Message) : List Byte :=
  [m.mode.code, lo8 m.target, hi8 m.target, lo8 m.source, hi8 m.source]
    ++ commandBytes c m.command ++ [BitVec.ofNat 8 m.payload.length]

/-- `serialize(m)` (R74). DESIGN CHOICE (log 9): on a message that is not well-formed for sending, where R74 defines nothing
and the block never calls it, the same text: Sniffer gives its code 04, and the payload's length and the command are cut
to the width of their fields. -/
def serialize (c : CmdBytes) (m : Message) : List Byte := headerBytes c m ++ m.payload

/-- The result of `deserialize` (R75). -/
inductive Deserialized where
  | message (m : Message)
  | framingError
  deriving DecidableEq, Repr

/-- The message a frame spells, given its mode (R75). -/
def messageOf (c : CmdBytes) (mode : Mode) (F : List Byte) : Message where
  mode := mode
  target := le16 (byteAt F 1) (byteAt F 2)
  source := le16 (byteAt F 3) (byteAt F 4)
  command := commandOf c F
  payload := F.drop c.headerSize

/-- `deserialize(F)` (R75): FramingError exactly when byte 0 is greater than 03. DESIGN CHOICE (log 9): on a list whose
length is not `HEADER_SIZE + F[HEADER_SIZE - 1]`, where R75 defines nothing and the block never calls it, the same text. -/
def deserialize (c : CmdBytes) (F : List Byte) : Deserialized :=
  match Mode.ofWire (byteAt F 0) with
  | none => .framingError
  | some mode => .message (messageOf c mode F)

/-- The frame length a header declares: `HEADER_SIZE + payload_size` (R70, R77). -/
def declaredLength (c : CmdBytes) (F : List Byte) : Nat :=
  c.headerSize + (byteAt F (c.headerSize - 1)).toNat

/-! ### The operation table (R82, R83) -/

/-- The mnemonics (R81). -/
inductive OpName where
  | RST
  | RXB
  | TMO
  | SND
  | TXB
  | TRN
  deriving DecidableEq, Repr

/-- The three trace formats (R82). -/
inductive Format where
  | E0
  | E1
  | EM
  deriving DecidableEq, Repr

/-- A row of the operation table: match and mask on byte 0 (R83). -/
structure OpRow where
  name    : OpName
  format  : Format
  pattern : Byte
  mask    : Byte
  deriving DecidableEq, Repr

/-- The operation codes (R83). -/
def opTable : List OpRow :=
  [⟨.RST, .E0, 0x00, 0xFF⟩,
   ⟨.RXB, .E1, 0x01, 0xFF⟩,
   ⟨.TMO, .E0, 0x02, 0xFF⟩,
   ⟨.SND, .EM, 0x03, 0xFF⟩,
   ⟨.TXB, .E0, 0x04, 0xFF⟩,
   ⟨.TRN, .E0, 0x05, 0xFF⟩]

/-- Whether a row matches the first byte of an operation (R83). -/
def OpRow.fits (b : Byte) (r : OpRow) : Bool := b &&& r.mask == r.pattern

/-- The row of the table that a first byte selects; none for the reserved codes (R84). -/
def opRow (b : Byte) : Option OpRow := opTable.find? (OpRow.fits b)

/-! ### The trace decoder (R82, R84) -/

/-- Why a trace is refused (R84, S3). -/
inductive DecodeError where
  /-- There is no byte at the operation boundary. -/
  | noOperation
  /-- The first byte is one of the reserved codes 06 to FF. -/
  | reservedCode (code : Byte)
  /-- An `E1` or `EM` operation ends before its declared length. -/
  | truncated (op : OpName)
  /-- The frame embedded in an `EM` operation has `target_mode > 03`. -/
  | badTargetMode (code : Byte)
  deriving DecidableEq, Repr

/-- What decoding gives: an operation with the bytes after it, or the reason of the refusal. -/
inductive Decoded where
  | op (i : Instr) (rest : List Byte)
  | refused (e : DecodeError)
  deriving DecidableEq, Repr

/-- The operand of an `E1` operation: one byte (R82). -/
def decodeByte : List Byte → Decoded
  | [] => .refused (.truncated .RXB)
  | b :: rest => .op (.rxb b) rest

/-- The operand of an `EM` operation: a frame, as long as its own header says (R82, R84). -/
def decodeFrame (c : CmdBytes) (bytes : List Byte) : Decoded :=
  if bytes.length < c.headerSize then .refused (.truncated .SND)
  else if bytes.length < declaredLength c bytes then .refused (.truncated .SND)
  else
    match deserialize c (bytes.take (declaredLength c bytes)) with
    | .framingError => .refused (.badTargetMode (byteAt bytes 0))
    | .message m => .op (.snd m) (bytes.drop (declaredLength c bytes))

/-- The operand bytes of an operation already named by its code. -/
def decodeOperand (c : CmdBytes) (op : OpName) (rest : List Byte) : Decoded :=
  match op with
  | .RST => .op .rst rest
  | .RXB => decodeByte rest
  | .TMO => .op .tmo rest
  | .SND => decodeFrame c rest
  | .TXB => .op .txb rest
  | .TRN => .op .trn rest

/-- The first operation of a trace (R82 to R84). -/
def decode (c : CmdBytes) : List Byte → Decoded
  | [] => .refused .noOperation
  | b :: rest =>
    match opRow b with
    | none => .refused (.reservedCode b)
    | some r => decodeOperand c r.name rest

/-! ### The encoder (R82, R83) -/

/-- The mnemonic of an operation (R81). -/
def Instr.name : Instr → OpName
  | .rst => .RST
  | .rxb _ => .RXB
  | .tmo => .TMO
  | .snd _ => .SND
  | .txb => .TXB
  | .trn => .TRN

/-- The trace bytes of an operation (R82, R83). -/
def encode (c : CmdBytes) : Instr → List Byte
  | .rst => [0x00]
  | .rxb b => [0x01, b]
  | .tmo => [0x02]
  | .snd m => 0x03 :: serialize c m
  | .txb => [0x04]
  | .trn => [0x05]

/-! ### The opcode table's words -/

/-- The bytes of a word of the opcode table, byte 0 its least significant. -/
def wordBytes (nbits w : Nat) : List Byte :=
  (List.range ((nbits + 7) / 8)).map (fun k => BitVec.ofNat 8 ((w % 2 ^ nbits) >>> (8 * k)))

/-- The same bytes followed by zeros, as many as the longest operation they can begin: its code, a header, and the payload
that header declares. -/
def tableBytes (c : CmdBytes) (nbits w : Nat) : List Byte :=
  wordBytes nbits w ++ List.replicate (1 + declaredLength c (wordBytes nbits w).tail) 0

/-- The operation the decoder of the default instance (`CMD_BYTES = 1`) reads from a word of the opcode table. -/
def decodeTableWord (nbits w : Nat) : Option Instr :=
  match decode .default (tableBytes .default nbits w) with
  | .op i _ => some i
  | .refused _ => none

end Sys2Proof
end

