-- ==== Sys2Proof/Machine/State.lean ====
section
/-! DEFINITION. The state of the machine (spec 10_state.md): the block's own elements exactly as R20 lists them, what the
port binding and the environment add (R36, R86), what a step reports, and the input still to come. -/

namespace Sys2Proof.Machine

/-- The resting states of the Frame Assembler (R21). -/
inductive FaState where
  | idle
  | headerPartial
  | payloadPartial
  deriving DecidableEq, Repr

/-- The phases of the local send (R27). -/
inductive TxState where
  | txIdle
  | sending
  | gap
  deriving DecidableEq, Repr

/-- The eight kinds of action the block emits (R85). -/
inductive Action where
  /-- Start or restart the one-shot timer. -/
  | tstart
  /-- Stop the timer. -/
  | tcancel
  /-- Switch the line driver. -/
  | dir (d : Dir)
  /-- A byte was accepted by the sink. -/
  | tx (b : Byte)
  /-- A frame was completed and is a message. -/
  | rxdone (F : List Byte)
  /-- A frame was completed and is a FramingError. -/
  | rxerr (F : List Byte)
  /-- The timeout discarded `n` bytes. -/
  | flush (n : Count)
  /-- The local send has released the lock. -/
  | snddone
  deriving DecidableEq, Repr

/-- The error conditions the block detects (R150). -/
inductive Condition where
  /-- A completed frame whose `target_mode` is no wire tag (R151). -/
  | framingError (F : List Byte)
  /-- The idle timer fired while a frame was in progress (R152). -/
  | frameAbandoned (n : Count)
  deriving DecidableEq, Repr

/-- What came of an attempt to perform an operation (R10). The fifth word, *refused*, is the outcome
`Host.Outcome.refused` of the step itself: it has no state to stand in. -/
inductive OutcomeWord where
  | performed
  | held
  | notEnabled
  | ignored
  deriving DecidableEq, Repr

/-- Bytes by index, strictly rising; an index that is not listed holds an unspecified byte (R35, log 4). -/
abbrev Mem := List Host.Cell

/-- The block: exactly the eleven elements of R20. -/
structure Block where
  faState    : FaState
  rxCnt      : Count
  payLen     : Byte
  buf        : Mem
  txLock     : Bool
  dir        : Dir
  txState    : TxState
  txb        : Mem
  txLen      : Count
  txIdx      : Count
  timerArmed : Bool
  deriving DecidableEq, Repr

/-- What the collaborators hold that the block reaches only through actions (R36). -/
structure Env where
  /-- The one-shot timer is running (R166). -/
  timerRunning : Bool
  /-- The direction the line driver was last told (R169). -/
  driver       : Dir
  /-- The bytes the sink has accepted since the last `DIR(Transmit)` (R61, R167). -/
  sent         : List Byte
  /-- The frames surfaced to the Dispatcher, oldest first (R65). -/
  surfaced     : List (List Byte)
  deriving DecidableEq, Repr

/-- The input ports in one clock cycle (R86), `clk` apart: a value of this type is one cycle. `sndCmd` has the 16 bits
of the wider instance (log 8). -/
structure PortIn where
  rst        : Bool
  rxValid    : Bool
  rxData     : Byte
  tmrFired   : Bool
  txReady    : Bool
  sndReq     : Bool
  sndMode    : Byte
  sndTarget  : Half
  sndSource  : Half
  sndCmd     : Half
  sndSize    : Byte
  plwEn      : Bool
  plwAddr    : Byte
  plwData    : Byte
  rxrAddr    : Count
  deriving DecidableEq, Repr

/-- The state of the machine. -/
structure State where
  /-- The parameter `CMD_BYTES`, constant for the instance (R7; log 1). -/
  cmdBytes  : CmdBytes
  /-- Whether an `RST` has been performed (R180, R181; log 5). -/
  started   : Bool
  /-- The block (R20). -/
  blk       : Block
  /-- `rxf_len` while it is valid (R86; log 14). -/
  rxfLen    : Option Count
  /-- The collaborators (R36). -/
  env       : Env
  /-- The actions of the last step, in order (R9, R62; log 7). -/
  actions   : List Action
  /-- The outcome words of the operations the last step attempted (R10; log 6). -/
  outcomes  : List OutcomeWord
  /-- The bytes of the trace still to be decoded (R82; log 2). -/
  trace     : List Byte
  /-- The clock cycles still to come (R86; log 2). -/
  cycles    : List PortIn
  /-- How many `RST` have been performed: which unspecified contents the buffers hold (log 4). -/
  resetGen  : Nat
  /-- How many same-cycle ties have been settled (log 12). -/
  tieCount  : Nat
  deriving DecidableEq, Repr

/-- Why the machine stops with a fault. Nothing in the spec stops the block; R9 only requires the index of a buffer
access to be below `BUF_SIZE`. -/
inductive Fault where
  /-- Raised by `RXB` and `TXB` when the counter they index with is not below `BUF_SIZE`: there is no such byte. SAFE: no
  reachable state does it (R37, R39; log 10). -/
  | outsideBuffer (buffer : Buffer) (index : Nat)
  deriving DecidableEq, Repr

/-- Why the machine refuses (R10: "the spec gives the operation no meaning"). -/
inductive Refusal where
  /-- The instruction of that mnemonic has no meaning in the model yet; raised by `exec` alone. SAFE. -/
  | notModelled (mnemonic : String)
  /-- Raised by every operation but `RST` before the first `RST` (R180, U4). SAFE: the spec gives it no meaning. -/
  | beforeReset
  /-- Raised by `SND`, and by a clock cycle that requests a send, for a message that is not well-formed for sending
  (R121, D24). SAFE: the spec refuses it. -/
  | illFormedSend
  /-- Raised by the step when the trace is ill-formed (R84). SAFE: the spec refuses it. -/
  | illFormedTrace (e : DecodeError)
  deriving DecidableEq, Repr

/-- The outcome type of a step of this machine. -/
abbrev Outcome := Host.Outcome State Fault Refusal

/-- The block after `RST` (R33). The contents of the buffers are unspecified: nothing is listed (log 4). -/
def Block.reset : Block where
  faState := .idle
  rxCnt := 0
  payLen := 0
  buf := []
  txLock := false
  dir := .receive
  txState := .txIdle
  txb := []
  txLen := 0
  txIdx := 0
  timerArmed := false

/-- The collaborators after `RST`: its `TCANCEL` stopped the timer and its `DIR(Receive)` turned the driver (R140); no byte
sent and no frame surfaced yet (log 7). -/
def Env.reset : Env where
  timerRunning := false
  driver := .receive
  sent := []
  surfaced := []

/-- The machine right after its first `RST` (R33, R140), with no input placed (log 2) and `CMD_BYTES` at its default
(R7). -/
def State.reset : State where
  cmdBytes := .default
  started := true
  blk := .reset
  rxfLen := none
  env := .reset
  actions := []
  outcomes := []
  trace := []
  cycles := []
  resetGen := 0
  tieCount := 0

end Sys2Proof.Machine
end

