-- ==== Sys2Proof/Machine/Ops.lean ====
section
/-! DEFINITION. The named operations over the buffers and the registers (spec R9): reading and writing bytes, emitting
actions, raising a condition (R150, R157), and the few updates that several operations share. -/

namespace Sys2Proof.Machine

/-! ### The buffers (R35, R52) -/

/-- The byte listed at an index, if any. -/
def Mem.find (a : Nat) : Mem → Option Byte
  | [] => none
  | cell :: rest => if cell.1 = a then some cell.2 else Mem.find a rest

/-- Write one byte, keeping the indices strictly rising. -/
def Mem.write (a : Nat) (b : Byte) : Mem → Mem
  | [] => [(a, b)]
  | cell :: rest =>
    if a < cell.1 then (a, b) :: cell :: rest
    else if a = cell.1 then (a, b) :: rest
    else cell :: Mem.write a b rest

/-- `MemWrite(S, a, n, L)` (R9): the bytes of `L` at rising indices from `a`. -/
def Mem.writeAll (a : Nat) : List Byte → Mem → Mem
  | [], m => m
  | b :: L, m => Mem.writeAll (a + 1) L (Mem.write a b m)

/-- Every listed index of a list is above `a`. -/
def Mem.above (a : Nat) (m : Mem) : Bool := m.all (fun cell => decide (a < cell.1))

/-- The canonical form: indices strictly rising. No value is left out of it, because an unlisted byte has no value of the
model's choosing (log 4). -/
def Mem.wf : Mem → Bool
  | [] => true
  | cell :: rest => Mem.above cell.1 rest && Mem.wf rest

/-- Every listed index is below `n`. -/
def Mem.below (n : Nat) (m : Mem) : Bool := m.all (fun cell => decide (cell.1 < n))

/-- A buffer of the block (R35). -/
def Block.mem (k : Block) : Buffer → Mem
  | .buf => k.buf
  | .txb => k.txb

/-- The byte at an index of a buffer: what was last written there since `RST`, else unspecified (R24, R28, R33). -/
def State.byte (s : State) (w : Buffer) (a : Nat) : Byte :=
  ((s.blk.mem w).find a).getD (Config.unspecifiedByte s.resetGen w a)

/-- `MemRead(S, a, n)` (R9): the byte list `[S[a] ... S[a+n-1]]`. -/
def State.bytes (s : State) (w : Buffer) (a n : Nat) : List Byte :=
  (List.range' a n).map (s.byte w)

/-! ### Sizes -/

/-- `HEADER_SIZE` of this instance (R7). -/
def State.headerSize (s : State) : Nat := s.cmdBytes.headerSize

/-- `BUF_SIZE` of this instance (R7). -/
def State.bufSize (s : State) : Nat := s.cmdBytes.bufSize

/-! ### Actions (R9, R36, R85) -/

/-- What an action does to the collaborator it goes to (R166, R169, R167, R65). -/
def Env.react (e : Env) : Action → Env
  | .tstart => { e with timerRunning := true }
  | .tcancel => { e with timerRunning := false }
  | .dir .transmit => { e with driver := .transmit, sent := [] }
  | .dir .receive => { e with driver := .receive }
  | .tx b => { e with sent := e.sent ++ [b] }
  | .rxdone F => { e with surfaced := e.surfaced ++ [F] }
  | .rxerr _ => e
  | .flush _ => e
  | .snddone => e

/-- `emit A` (R9): append the action to those of this operation; its collaborator receives it at once (R56). -/
def State.emit (a : Action) (s : State) : State :=
  { s with actions := s.actions ++ [a], env := s.env.react a }

/-- The action that reports a condition (R150). -/
def Condition.action : Condition → Action
  | .framingError F => .rxerr F
  | .frameAbandoned n => .flush n

/-- `raise X(info)` (R9, R157): the one thing a condition does is to emit its action; nothing is saved, control is not
transferred, and the operation goes on, so there is nothing to return from (R158). -/
def State.raise (x : Condition) (s : State) : State := s.emit x.action

/-! ### What every operation shares -/

/-- The start of an attempt: no action yet, and the outcome word of R10. -/
def State.attempt (w : OutcomeWord) (s : State) : State :=
  { s with actions := [], outcomes := [w] }

/-- An attempt that leaves the block as it is: *held*, *ignored* or *not enabled* (R10). -/
def State.unperformed (w : OutcomeWord) (s : State) : Outcome := .next (s.attempt w)

/-- Before the first `RST` no operation but `RST` has a meaning (R180, R181). -/
def State.onceStarted (s : State) (f : State → Outcome) : Outcome :=
  if s.started then f s else .refused .beforeReset

/-! ### The registers of the assembler and of the arbiter -/

/-- `buf[rx_cnt] <- b` and `rx_cnt <- rx_cnt + 1` (R100); `rxf_len` is valid only "until the next `rx_valid`" (R86). -/
def State.append (b : Byte) (s : State) : State :=
  { s with
    blk := { s.blk with buf := Mem.write s.blk.rxCnt.toNat b s.blk.buf, rxCnt := s.blk.rxCnt + 1 }
    rxfLen := none }

/-- `fa_state <- v` (R9). -/
def State.setFaState (v : FaState) (s : State) : State := { s with blk := { s.blk with faState := v } }

/-- `pay_len <- v` (R100). -/
def State.setPayLen (v : Byte) (s : State) : State := { s with blk := { s.blk with payLen := v } }

/-- The assembler back to Idle: `fa_state <- Idle`, `rx_cnt <- 0`, `pay_len <- 0` (R101, R103); the bytes stay (R24). -/
def State.assemblerIdle (s : State) : State :=
  { s with blk := { s.blk with faState := .idle, rxCnt := 0, payLen := 0 } }

/-- `tx_state <- v` (R9). -/
def State.setTxState (v : TxState) (s : State) : State := { s with blk := { s.blk with txState := v } }

/-- The arbiter back to TxIdle: `tx_state <- TxIdle`, `tx_len <- 0`, `tx_idx <- 0` (R103). -/
def State.arbiterIdle (s : State) : State :=
  { s with blk := { s.blk with txState := .txIdle, txLen := 0, txIdx := 0 } }

/-- Latch a frame: `MemWrite(txb, 0, len(L), L)`, `tx_len <- len(L)`, `tx_idx <- 0` (R121). -/
def State.latch (L : List Byte) (s : State) : State :=
  { s with
    blk := { s.blk with txb := Mem.writeAll 0 L s.blk.txb, txLen := BitVec.ofNat 9 L.length, txIdx := 0 } }

/-- `tx_idx <- tx_idx + 1` (R122). -/
def State.advanceTx (s : State) : State := { s with blk := { s.blk with txIdx := s.blk.txIdx + 1 } }

end Sys2Proof.Machine
end

