-- ==== Sys2Proof/Machine/Flags.lean ====
section
/-! DEFINITION. The three flags of the block and everything that writes them (spec R34): `tx_lock` (R120), `dir` (R128) and
`timer_armed` (R29). -/

namespace Sys2Proof.Machine

/-- `tx_lock <- v` (R25, R120). -/
def State.setTxLock (v : Bool) (s : State) : State := { s with blk := { s.blk with txLock := v } }

/-- `timer_armed <- v` (R29). -/
def State.setTimerArmed (v : Bool) (s : State) : State := { s with blk := { s.blk with timerArmed := v } }

/-- `dir <- d` with its action (R26, R121, R123, R140). -/
def State.switchLine (d : Dir) (s : State) : State :=
  ({ s with blk := { s.blk with dir := d } }).emit (.dir d)

/-- `emit TSTART` and `timer_armed <- 1` (R29, R100, R123). -/
def State.startTimer (s : State) : State := (s.emit .tstart).setTimerArmed true

/-- The one-shot timer has fired: `timer_armed <- 0` (R103), and the timer itself is then not running (R166). -/
def State.timerFired (s : State) : State :=
  ({ s with env := { s.env with timerRunning := false } }).setTimerArmed false

end Sys2Proof.Machine
end

