-- ==== Sys2Proof/Machine/Operands.lean ====
section
/-! DEFINITION. Where the operations find their operands: the header byte that gives the payload length (spec R100), the
frame in `buf` (R101), the byte presented to the sink (R122), and the message a `SND` is given at the ports (R87). -/

namespace Sys2Proof.Machine

/-- `buf[HEADER_SIZE - 1]`, the `payload_size` of the frame being received (R55, R100). -/
def State.headerPayLen (s : State) : Byte := s.byte .buf (s.headerSize - 1)

/-- `MemRead(buf, 0, rx_cnt)`: the frame received so far (R101). -/
def State.rxFrame (s : State) : List Byte := s.bytes .buf 0 s.blk.rxCnt.toNat

/-- `txb[0 .. tx_len-1]`: the frame being sent (R28). -/
def State.txFrame (s : State) : List Byte := s.bytes .txb 0 s.blk.txLen.toNat

/-- `txb[tx_idx]`: the byte presented to the sink (R122). -/
def State.txByte (s : State) : Byte := s.byte .txb s.blk.txIdx.toNat

/-- The header has just become complete (R100). -/
def State.headerDone (s : State) : Bool :=
  decide (s.blk.faState = .headerPartial) && decide (s.blk.rxCnt.toNat = s.headerSize)

/-- The payload has just become complete (R100). -/
def State.payloadDone (s : State) : Bool :=
  decide (s.blk.faState = .payloadPartial)
    && decide (s.blk.rxCnt.toNat = s.headerSize + s.blk.payLen.toNat)

/-- The guard of `TXB`, which is also the output `tx_valid` (R86, R122). -/
def State.txEnabled (s : State) : Bool :=
  decide (s.blk.txState = .sending) && decide (s.blk.txIdx.toNat < s.blk.txLen.toNat)

/-- The guard of `TRN` (R123). -/
def State.trnEnabled (s : State) : Bool :=
  decide (s.blk.txState = .sending) && decide (s.blk.txIdx = s.blk.txLen)

/-- The `command` a port value gives: `8 * CMD_BYTES` bits (R86). -/
def portCommand (c : CmdBytes) (v : Half) : Half :=
  match c with
  | .one => (lo8 v).setWidth 16
  | .two => v

/-- The message assembled from the field ports and the first `snd_size` bytes of the payload staging area, which is the
payload part of `txb` (R87); none where `snd_mode` names no mode (R71). -/
def State.portMessage (p : PortIn) (s : State) : Option Message :=
  (Mode.named p.sndMode).map fun mode =>
    { mode := mode
      target := p.sndTarget
      source := p.sndSource
      command := portCommand s.cmdBytes p.sndCmd
      payload := s.bytes .txb s.headerSize p.sndSize.toNat }

end Sys2Proof.Machine
end

