-- ==== Sys2Proof/Machine/BusArbiter.lean ====
section
/-! DEFINITION. The operations of the Bus Arbiter: `SND`, `TXB` and `TRN` (spec 41_bus_arbiter.md). -/

namespace Sys2Proof.Machine

/-- `SND m` performed (R121): lock, line, latch. -/
def sndBegin (m : Message) (s : State) : State :=
  (((s.setTxLock true).switchLine .transmit).latch (serialize s.cmdBytes m)).setTxState .sending

/-- `SND m` (R121): refused when ill-formed, tested before the lock (D24); held while the lock is set. -/
def execSnd (m : Message) (s : State) : Outcome :=
  s.onceStarted fun s =>
    if m.wf s.cmdBytes then
      if s.blk.txLock then s.unperformed .held
      else .next (sndBegin m (s.attempt .performed))
    else .refused .illFormedSend

/-- `TXB` (R122): not enabled unless a byte is presented. -/
def execTxb (s : State) : Outcome :=
  s.onceStarted fun s =>
    if s.txEnabled then
      if s.blk.txIdx.toNat < s.bufSize then
        .next ((s.attempt .performed).emit (.tx s.txByte)).advanceTx
      else .fault (.outsideBuffer .txb s.blk.txIdx.toNat)
    else s.unperformed .notEnabled

/-- `TRN` (R123): not enabled until every byte has been accepted. -/
def execTrn (s : State) : Outcome :=
  s.onceStarted fun s =>
    if s.trnEnabled then
      .next (((s.attempt .performed).switchLine .receive).startTimer.setTxState .gap)
    else s.unperformed .notEnabled

end Sys2Proof.Machine
end

