-- ==== Sys2Proof/Machine/Control.lean ====
section
/-! DEFINITION. The operation `RST` (spec 42_control.md R140). -/

namespace Sys2Proof.Machine

/-- The registers after `RST` (R33, R140). "`buf` and `txb` are not written: their contents become unspecified": nothing is
listed any more, and the generation of the unspecified contents moves on (log 4). -/
def State.resetBlock (s : State) : State :=
  { s with blk := .reset, started := true, resetGen := s.resetGen + 1 }

/-- `RST` (R140): performed in every state, before the first `RST` too (R180). -/
def execRst (s : State) : Outcome :=
  .next ((((s.attempt .performed).emit .tcancel).emit (.dir .receive)).resetBlock)

end Sys2Proof.Machine
end

