-- ==== Sys2Proof/Machine/FrameAssembler.lean ====
section
/-! DEFINITION. The operations of the Frame Assembler: `RXB` with the transient `Complete()`, and `TMO` (spec
40_frame_assembler.md). -/

namespace Sys2Proof.Machine

/-! ### RXB (R100, R101) -/

/-- The frame is surfaced, or reported as a FramingError (R101, R151). -/
def surfaceFrame (F : List Byte) (s : State) : State :=
  match deserialize s.cmdBytes F with
  | .framingError => s.raise (.framingError F)
  | .message _ => s.emit (.rxdone F)

/-- `Complete()` (R101): the whole frame is handed over and the assembler returns to Idle; the lock and the timer stay.
`rxf_len` now shows the frame's length (R86). -/
def complete (s : State) : State :=
  { (surfaceFrame s.rxFrame s).assemblerIdle with rxfLen := some s.blk.rxCnt }

/-- The unconditional part of `RXB` (R100): the lock, the timer, the byte. -/
def rxbStore (b : Byte) (s : State) : State := (s.setTxLock true).startTimer.append b

/-- The first test of `RXB` (R100): the first byte of a frame leaves Idle. -/
def rxbLeaveIdle (s : State) : State :=
  if s.blk.faState = .idle then s.setFaState .headerPartial else s

/-- The header is complete (R100): read `payload_size`, then go on to the payload, or complete where there is none. -/
def rxbHeaderDone (s : State) : State :=
  if s.headerPayLen = 0 then complete (s.setPayLen s.headerPayLen)
  else (s.setPayLen s.headerPayLen).setFaState .payloadPartial

/-- The second and third tests of `RXB` (R100). -/
def rxbAdvance (s : State) : State :=
  if s.headerDone then rxbHeaderDone s
  else if s.payloadDone then complete s
  else s

/-- `RXB b` (R100): performed in every state. -/
def execRxb (b : Byte) (s : State) : Outcome :=
  s.onceStarted fun s =>
    if s.blk.rxCnt.toNat < s.bufSize then
      .next (rxbAdvance (rxbLeaveIdle (rxbStore b (s.attempt .performed))))
    else .fault (.outsideBuffer .buf s.blk.rxCnt.toNat)

/-! ### TMO (R103) -/

/-- The assembler's share of `TMO` (R103): a frame in progress is abandoned. -/
def tmoFlush (s : State) : State :=
  if s.blk.faState = .idle then s
  else (s.raise (.frameAbandoned s.blk.rxCnt)).assemblerIdle

/-- The arbiter's share of `TMO` (R103): the lock is released, but not while a local send is pushing bytes (D10). -/
def tmoRelease (s : State) : State :=
  match s.blk.txState with
  | .sending => s
  | .gap => ((s.emit .snddone).setTxLock false).arbiterIdle
  | .txIdle => (s.setTxLock false).arbiterIdle

/-- `TMO` (R103): ignored when the timer is not running. -/
def execTmo (s : State) : Outcome :=
  s.onceStarted fun s =>
    if s.blk.timerArmed then .next (tmoRelease (tmoFlush (s.attempt .performed).timerFired))
    else s.unperformed .ignored

end Sys2Proof.Machine
end

