-- ==== Sys2Proof/Machine/Dispatch.lean ====
section
/-! DEFINITION. One arm per operation (spec R81). -/

namespace Sys2Proof.Machine

def exec (i : Instr) (s : State) : Host.Outcome State Fault Refusal :=
  match i with
  | .rst => Sys2Proof.Machine.execRst s
  | .rxb b => Sys2Proof.Machine.execRxb b s
  | .tmo => Sys2Proof.Machine.execTmo s
  | .snd m => Sys2Proof.Machine.execSnd m s
  | .txb => Sys2Proof.Machine.execTxb s
  | .trn => Sys2Proof.Machine.execTrn s

end Sys2Proof.Machine
end

