-- ==== Sys2Proof/Machine/Run.lean ====
section
/-! DEFINITION. Several operations one after another (spec R59), and the pseudo-operations that stand for such sequences
(R90). -/

namespace Sys2Proof.Machine

/-- The reports of `t` before those of `u`: actions stay in the order they were emitted (R62). -/
def State.reportsAfter (t u : State) : State :=
  { u with actions := t.actions ++ u.actions, outcomes := t.outcomes ++ u.outcomes }

/-- Perform operations in order, each on the state the one before left (R59); the actions and outcome words of all of
them are reported together, and the first fault or refusal ends the sequence. -/
def performAll : List Instr → State → Outcome
  | [], s => .next { s with actions := [], outcomes := [] }
  | i :: is, s =>
    match exec i s with
    | .next t =>
      match performAll is t with
      | .next u => .next (t.reportsAfter u)
      | .fault f => .fault f
      | .refused r => .refused r
    | .fault f => .fault f
    | .refused r => .refused r

/-- The pseudo-operations (R90). -/
inductive Pseudo where
  | rxs (bytes : List Byte)
  | rxf (m : Message)
  | txall
  | send (m : Message)
  | sendlb (m : Message)
  | gap
  deriving DecidableEq, Repr

/-- The operations a pseudo-operation expands to in a state (R90); only `TXALL` looks at the state. In `SEND m` the
`TXALL` follows the performed `SND m`, where `tx_len - tx_idx` is the length of the frame. -/
def Pseudo.expand (c : CmdBytes) (s : State) : Pseudo → List Instr
  | .rxs bytes => bytes.map Instr.rxb
  | .rxf m => (serialize c m).map Instr.rxb
  | .txall => List.replicate (s.blk.txLen.toNat - s.blk.txIdx.toNat) Instr.txb
  | .send m => Instr.snd m :: (List.replicate (serialize c m).length Instr.txb ++ [Instr.trn, Instr.tmo])
  | .sendlb m =>
    Instr.snd m :: ((serialize c m).flatMap (fun b => [Instr.txb, Instr.rxb b]) ++ [Instr.trn, Instr.tmo])
  | .gap => [Instr.tmo]

end Sys2Proof.Machine
end

