-- ==== Sys2Proof/Machine/Ports.lean ====
section
/-! DEFINITION. The port binding (spec R86, R87, R88): what a clock cycle performs and in which order (R156), the payload
staging area (R87, R193), the output ports (R86, R198), and the numeric state codes (R80). -/

namespace Sys2Proof.Machine

/-! ### State codes (R79, R80) -/

/-- The code of `fa_state` (R80). -/
def FaState.code : FaState → BitVec 2
  | .idle => 0b00
  | .headerPartial => 0b01
  | .payloadPartial => 0b10

/-- The code of `tx_state` (R80). -/
def TxState.code : TxState → BitVec 2
  | .txIdle => 0b00
  | .sending => 0b01
  | .gap => 0b10

/-- The code of `dir` (R80). -/
def dirCode : Dir → BitVec 1
  | .receive => 0
  | .transmit => 1

/-- The code of `tx_lock` (R80). -/
def lockCode (held : Bool) : BitVec 1 := BitVec.ofBool held

/-! ### Input (R86, R87) -/

/-- A cycle in which no input port is high. -/
def PortIn.quiet : PortIn where
  rst := false
  rxValid := false
  rxData := 0
  tmrFired := false
  txReady := false
  sndReq := false
  sndMode := 0
  sndTarget := 0
  sndSource := 0
  sndCmd := 0
  sndSize := 0
  plwEn := false
  plwAddr := 0
  plwData := 0
  rxrAddr := 0

/-- `snd_busy`: a local send is in progress (R86, R88). -/
def State.sndBusy (s : State) : Bool := decide (s.blk.txState ≠ .txIdle)

/-- Whether a payload staging write takes effect: "a write with `snd_busy = 1` or `plw_addr = 255` is dropped" (R87). -/
def State.stagingWrites (p : PortIn) (s : State) : Bool :=
  p.plwEn && !s.sndBusy && decide (p.plwAddr ≠ 255)

/-- `txb[HEADER_SIZE + plw_addr] <- plw_data` (R87): no operation, but a write of the payload part of `txb`. -/
def State.stage (p : PortIn) (s : State) : State :=
  if s.stagingWrites p then
    { s with blk := { s.blk with txb := Mem.write (s.headerSize + p.plwAddr.toNat) p.plwData s.blk.txb } }
  else s

/-- A staging write and a send request in one cycle, of a byte the message would hold: R87 and R156 do not order them. -/
def State.stagingTie (p : PortIn) (s : State) : Bool :=
  s.stagingWrites p && p.sndReq && decide (p.plwAddr.toNat < p.sndSize.toNat)

/-- The message a cycle asks to send (R87). In a tie a free value says whether the byte written in this cycle is already
part of it (log 12). -/
def State.requestedMessage (p : PortIn) (s : State) : Option Message :=
  if s.stagingTie p then
    if Config.stagingSeenBySend s.tieCount then (s.stage p).portMessage p else s.portMessage p
  else (s.stage p).portMessage p

/-- The state in which the operations of a cycle begin: the staging write done, a tie counted. -/
def State.openCycle (p : PortIn) (s : State) : State :=
  { s.stage p with tieCount := if s.stagingTie p then s.tieCount + 1 else s.tieCount }

/-! ### The operations of a cycle, in their order (R156) -/

/-- Steps 2 and 3: a received byte, else the timer; a `tmr_fired` beside a byte is dropped (D18). -/
def receiveOps (p : PortIn) : List Instr :=
  if p.rxValid then [.rxb p.rxData] else if p.tmrFired then [.tmo] else []

/-- Steps 4 and 5: the sink's acceptance and the turnaround, each by the guard at the start of the cycle. -/
def transmitOps (p : PortIn) (s : State) : List Instr :=
  (if s.txEnabled && p.txReady then [.txb] else []) ++ (if s.trnEnabled then [.trn] else [])

/-- Steps 2 to 5: the operations of a cycle without `rst` that come before a send (R156). -/
def cycleOps (p : PortIn) (s : State) : List Instr := receiveOps p ++ transmitOps p s

/-- Step 6: a send is requested, and steps 2 to 5 have left the state `t`. With the lock set no `SND` is attempted, whatever
the field ports hold: the request is held (R87, R121, R156). With the lock free `SND` is performed, and reported after
them; where the ports spell no well-formed message it is refused (R78, R121; log 13). -/
def grantSend (m : Option Message) (t : State) : Outcome :=
  if t.blk.txLock then .next (t.reportsAfter (t.attempt .held))
  else
    match m with
    | none => .refused .illFormedSend
    | some m =>
      match exec (.snd m) t with
      | .next u => .next (t.reportsAfter u)
      | .fault f => .fault f
      | .refused r => .refused r

/-- A clock cycle without `rst` (R156). -/
def runCycle (p : PortIn) (s : State) : Outcome :=
  match performAll (cycleOps p s) (s.openCycle p) with
  | .next t => if p.sndReq then grantSend (s.requestedMessage p) t else .next t
  | .fault f => .fault f
  | .refused r => .refused r

/-- One clock cycle (R87, R156). With `rst`, `RST` alone. Before the first `RST` nothing else has a meaning (R180). -/
def clockCycle (p : PortIn) (s : State) : Outcome :=
  if p.rst then exec .rst s else s.onceStarted (runCycle p)

/-! ### Output (R86, R88, R198) -/

/-- The output ports (R86). A port that R86 calls valid only at times is an Option, none while it is not valid
(log 15). -/
structure PortOut where
  tmrStart  : Bool
  tmrCancel : Bool
  dir       : Dir
  txValid   : Bool
  txData    : Option Byte
  sndGnt    : Bool
  sndBusy   : Bool
  sndDone   : Bool
  lock      : Bool
  rxfValid  : Bool
  rxfErr    : Option Bool
  rxfLen    : Option Count
  rxrData   : Option Byte
  flush     : Bool
  flushLen  : Option Count
  deriving DecidableEq, Repr

/-- `rxf_err`, valid with `rxf_valid`: 1 for `RXERR` (R86). -/
def Action.rxfErr? : Action → Option Bool
  | .rxdone _ => some false
  | .rxerr _ => some true
  | .tstart => none
  | .tcancel => none
  | .dir _ => none
  | .tx _ => none
  | .flush _ => none
  | .snddone => none

/-- `flush_len`, valid with `flush` (R86). -/
def Action.flushLen? : Action → Option Count
  | .flush n => some n
  | .rxdone _ => none
  | .rxerr _ => none
  | .tstart => none
  | .tcancel => none
  | .dir _ => none
  | .tx _ => none
  | .snddone => none

/-- The output ports after a cycle (R86, R88, R198): levels show the state; a pulse is high in the cycle after the one whose
operations emitted its action (log 11). -/
def outputs (rxrAddr : Count) (s : State) : PortOut where
  tmrStart := s.actions.contains .tstart
  tmrCancel := s.actions.contains .tcancel
  dir := s.blk.dir
  txValid := s.txEnabled
  txData := if s.txEnabled then some s.txByte else none
  sndGnt := s.actions.contains (.dir .transmit)
  sndBusy := s.sndBusy
  sndDone := s.actions.contains .snddone
  lock := s.blk.txLock
  rxfValid := (s.actions.findSome? Action.rxfErr?).isSome
  rxfErr := s.actions.findSome? Action.rxfErr?
  rxfLen := s.rxfLen
  rxrData := if rxrAddr.toNat < s.bufSize then some (s.byte .buf rxrAddr.toNat) else none
  flush := (s.actions.findSome? Action.flushLen?).isSome
  flushLen := s.actions.findSome? Action.flushLen?

end Sys2Proof.Machine
end

