-- ==== Sys2Proof/Machine/Fetch.lean ====
section
/-! DEFINITION. Where the machine's next operation comes from: the trace (spec R82) or, when the trace is empty, the next
clock cycle (R87; log 2, log 3). -/

namespace Sys2Proof.Machine

/-- The first operation of the trace, decoded with this instance's `CMD_BYTES` (R82, R84). -/
def fetch (s : State) : Decoded := decode s.cmdBytes s.trace

/-- The clock cycle that comes next: the queue's first, or a quiet one (log 3). -/
def nextCycle (s : State) : PortIn := s.cycles.headD .quiet

/-- One clock cycle taken from the queue. -/
def cycleStep (s : State) : Outcome := clockCycle (nextCycle s) { s with cycles := s.cycles.tail }

/-- One operation taken from a trace that is not empty. -/
def traceStep (s : State) : Outcome :=
  match fetch s with
  | .op i rest => exec i { s with trace := rest }
  | .refused e => .refused (.illFormedTrace e)

/-- The bytes of the operation that a word of the opcode table spells: the word and then zeros, cut after the operation;
all of them where they spell none. -/
def operationBytes (c : CmdBytes) (nbits w : Nat) : List Byte :=
  match decode c (tableBytes c nbits w) with
  | .op _ rest => (tableBytes c nbits w).take ((tableBytes c nbits w).length - rest.length)
  | .refused _ => tableBytes c nbits w

/-- Put one operation in front of the trace. -/
def placeWord (s : State) (nbits w : Nat) : State :=
  { s with trace := operationBytes s.cmdBytes nbits w ++ s.trace }

end Sys2Proof.Machine
end

