-- ==== Sys2Proof/Machine/Step.lean ====
section
/-! DEFINITION. One step of the machine: the next operation of the trace, else the next clock cycle. -/

namespace Sys2Proof.Machine

/-- One step: while the trace holds bytes, its next operation (spec R59, R82); otherwise one clock cycle (R87, R156). -/
def step (s : State) : Host.Outcome State Fault Refusal :=
  match s.trace with
  | [] => cycleStep s
  | _ :: _ => traceStep s

/-- The state in which a word of the opcode table is the next operation. -/
def State.withFetchWord (s : State) (nbits w : Nat) : State := placeWord s nbits w

end Sys2Proof.Machine
end

