-- ==== Sys2Proof/Machine/Bus.lean ====
section
/-! DEFINITION. Several nodes on one line (spec R171): each has its own block; they share only the bytes. The line delivers
every byte once, in order, to every other node, and to the sender where `LOOPBACK` holds (R7, R60, R168). What two nodes
that drive the line together do to each other's bytes is outside this model (log 17). -/

namespace Sys2Proof.Machine

/-- A node: its block, whether its ByteSource delivers its own bytes (`LOOPBACK`, R7), and the bytes that appeared on the
line and are not yet delivered to it (R36, R60). -/
structure Node where
  state    : State
  loopback : Bool
  heard    : List Byte
  deriving DecidableEq, Repr

/-- The nodes of a bus. -/
abbrev Bus := List Node

/-- The byte an action puts on the line (R85, R167). -/
def Action.lineByte? : Action → Option Byte
  | .tx b => some b
  | .tstart => none
  | .tcancel => none
  | .dir _ => none
  | .rxdone _ => none
  | .rxerr _ => none
  | .flush _ => none
  | .snddone => none

/-- The ByteSource's contract (R60, R168): the operand of `RXB` is the next byte of the line, taken once; every other
operation takes none. None where the operation cannot occur. -/
def Node.deliver (n : Node) : Instr → Option Node
  | .rxb b =>
    match n.heard with
    | [] => none
    | h :: rest => if h = b then some { n with heard := rest } else none
  | .rst => some n
  | .tmo => some n
  | .snd _ => some n
  | .txb => some n
  | .trn => some n

/-- Bytes that node `k` sends reach node `j` (R171). -/
def Node.hear (k j : Nat) (bytes : List Byte) (n : Node) : Node :=
  if j = k ∧ n.loopback = false then n else { n with heard := n.heard ++ bytes }

/-- Node `k` performs an operation; none where it cannot occur or its block gives no next state. -/
def Bus.act (k : Nat) (i : Instr) (bus : Bus) : Option Bus :=
  match bus[k]? with
  | none => none
  | some n =>
    match n.deliver i with
    | none => none
    | some n' =>
      match exec i n'.state with
      | .next t =>
        some ((bus.set k { n' with state := t }).mapIdx
          (fun j node => node.hear k j (t.actions.filterMap Action.lineByte?)))
      | .fault _ => none
      | .refused _ => none

/-- A sequence of operations, each of a named node (R59). -/
def Bus.run : List (Nat × Instr) → Bus → Option Bus
  | [], bus => some bus
  | op :: ops, bus =>
    match bus.act op.1 op.2 with
    | none => none
    | some bus' => Bus.run ops bus'

end Sys2Proof.Machine
end

