-- ==== Sys2Proof/Machine/Script.lean ====
section
/-! DEFINITION. The script text of operations, actions and outcomes (spec R89). -/

namespace Sys2Proof.Machine

/-- A hexadecimal digit, in capitals. -/
def hexDigit (n : Nat) : Char := "0123456789ABCDEF".toList.getD n '?'

/-- A byte as two hexadecimal digits (R8). -/
def hexByte (b : Byte) : List Char := [hexDigit (b.toNat / 16), hexDigit (b.toNat % 16)]

/-- A 16-bit value as four hexadecimal digits. -/
def hexHalf (v : Half) : List Char := hexByte (hi8 v) ++ hexByte (lo8 v)

/-- A number in hexadecimal "with `0x`" (R89). -/
def withPrefix (digits : List Char) : List Char := "0x".toList ++ digits

/-- "A byte list in square brackets without `0x`" (R89). -/
def listText (L : List Byte) : List Char :=
  "[".toList ++ (" ".toList).intercalate (L.map hexByte) ++ "]".toList

/-- The name of a mode (R71). -/
def Mode.text : Mode → List Char
  | .broadcast => "Broadcast".toList
  | .byId => "ById".toList
  | .byType => "ByType".toList
  | .byGroup => "ByGroup".toList
  | .sniffer => "Sniffer".toList

/-- A `command` with two digits a byte (R89). -/
def commandText (c : CmdBytes) (v : Half) : List Char :=
  match c with
  | .one => withPrefix (hexByte (lo8 v))
  | .two => withPrefix (hexHalf v)

/-- "A message as `(Mode, target, source, command, [payload bytes])`" (R89). -/
def messageText (c : CmdBytes) (m : Message) : List Char :=
  "(".toList
    ++ (", ".toList).intercalate
        [Mode.text m.mode, withPrefix (hexHalf m.target), withPrefix (hexHalf m.source),
          commandText c m.command, listText m.payload]
    ++ ")".toList

/-- The name of a direction (R26). -/
def dirText : Dir → List Char
  | .receive => "Receive".toList
  | .transmit => "Transmit".toList

/-- A count in decimal, as the examples of R89 write it. -/
def countText (n : Count) : List Char := Nat.toDigits 10 n.toNat

/-- An operation (R89): "mnemonic in capitals". -/
def operationText (c : CmdBytes) : Instr → List Char
  | .rst => "RST".toList
  | .rxb b => "RXB ".toList ++ withPrefix (hexByte b)
  | .tmo => "TMO".toList
  | .snd m => "SND ".toList ++ messageText c m
  | .txb => "TXB".toList
  | .trn => "TRN".toList

/-- An action (R85, R89). -/
def actionText : Action → List Char
  | .tstart => "TSTART".toList
  | .tcancel => "TCANCEL".toList
  | .dir d => "DIR(".toList ++ dirText d ++ ")".toList
  | .tx b => "TX(".toList ++ withPrefix (hexByte b) ++ ")".toList
  | .rxdone F => "RXDONE(".toList ++ listText F ++ ")".toList
  | .rxerr F => "RXERR(".toList ++ listText F ++ ")".toList
  | .flush n => "FLUSH(".toList ++ countText n ++ ")".toList
  | .snddone => "SNDDONE".toList

/-- What stands after `->` for an operation that was performed and for one that was not (R89). -/
def resultText (acts : List Action) : OutcomeWord → List Char
  | .performed => (" ".toList).intercalate (acts.map actionText)
  | .held => "held".toList
  | .notEnabled => "not enabled".toList
  | .ignored => "ignored".toList

/-- A line of a script (R89): the operation and, after `->`, its actions or its outcome word. -/
def scriptLine (i : Instr) (s : State) : List Char :=
  operationText s.cmdBytes i ++ " -> ".toList ++
    match exec i s with
    | .next t => resultText t.actions (t.outcomes.headD .performed)
    | .refused _ => "refused".toList
    | .fault _ => "fault".toList

end Sys2Proof.Machine
end

