-- ==== Sys2Proof/Machine/Timed.lean ====
section
/-! DEFINITION. The timed environment (spec R199): every operation carries a time stamp and the Timer has a deadline. The
duration `ONE_BYTE_TIME` is an argument (R7, D29). Nothing of the machine depends on this file (R197). -/

namespace Sys2Proof.Machine

/-- The machine with a clock and the Timer's deadline, none while the timer is not running (R199). Time is a natural
number of units of any size (log 16). -/
structure Timed where
  state    : State
  now      : Nat
  deadline : Option Nat
  /-- When the Timer last fired: at that instant nothing may restart or cancel it any more (R199). -/
  firedAt  : Option Nat
  deriving DecidableEq, Repr

/-- After a reset at time 0 the timer is not running (R140). -/
def Timed.reset : Timed where
  state := .reset
  now := 0
  deadline := none
  firedAt := none

/-- An operation starts, restarts or cancels the timer (R199). -/
def setsTimer (acts : List Action) : Bool := acts.contains .tstart || acts.contains .tcancel

/-- The deadline after an operation at time `t` (R199). -/
def deadlineAfter (oneByteTime t : Nat) (i : Instr) (acts : List Action) (d : Option Nat) : Option Nat :=
  if acts.contains .tstart then some (t + oneByteTime)
  else if acts.contains .tcancel then none
  else if i = .tmo then none
  else d

/-- R199 lets an operation occur at time `t`: time does not run backwards, no deadline has passed without its `TMO`, and
`TMO` occurs exactly at the deadline. -/
def Timed.mayOccur (t : Nat) (i : Instr) (w : Timed) : Bool :=
  decide (w.now ≤ t)
    && (match w.deadline with
        | none => decide (i ≠ .tmo)
        | some d => decide (t ≤ d) && (decide (i ≠ .tmo) || decide (t = d)))

/-- An operation at time `t`; none where R199 excludes it, among them a restart at the very instant of a `TMO`: there the
restart wins and the `TMO` does not occur. -/
def Timed.act (oneByteTime t : Nat) (i : Instr) (w : Timed) : Option Timed :=
  if w.mayOccur t i then
    match exec i w.state with
    | .next s =>
      if setsTimer s.actions && decide (w.firedAt = some t) then none
      else some
        { state := s
          now := t
          deadline := deadlineAfter oneByteTime t i s.actions w.deadline
          firedAt := if i = .tmo then some t else w.firedAt }
    | .fault _ => none
    | .refused _ => none
  else none

/-- A sequence of time-stamped operations (R199). -/
def Timed.run (oneByteTime : Nat) : List (Nat × Instr) → Timed → Option Timed
  | [], w => some w
  | op :: ops, w =>
    match w.act oneByteTime op.1 op.2 with
    | none => none
    | some w' => Timed.run oneByteTime ops w'

end Sys2Proof.Machine
end

