-- ==== Sys2Proof/Safety.lean ====
section
/-! DEFINITION. The terms that claims use: the Quiescent state (spec R33), the invariants (R37 to R40), the classes of state
and the outcome table (R141), what a well-behaved environment offers (R166, R167, R173), stale bytes (R24, R28, S2), and
runs with their fairness (R145, R195). -/

namespace Sys2Proof.Machine

/-- Quiescent (R33): every register as `RST` leaves it, with any buffer contents. -/
abbrev State.Quiescent (s : State) : Prop :=
  s.blk.faState = .idle ∧ s.blk.rxCnt = 0 ∧ s.blk.payLen = 0 ∧ s.blk.txLock = false
    ∧ s.blk.dir = .receive ∧ s.blk.txState = .txIdle ∧ s.blk.txLen = 0 ∧ s.blk.txIdx = 0
    ∧ s.blk.timerArmed = false

/-! ### Invariants -/

/-- Assembler shape (R37). -/
abbrev State.AssemblerShape (s : State) : Prop :=
  (s.blk.faState = .idle ↔ s.blk.rxCnt = 0)
    ∧ (s.blk.faState = .headerPartial ↔
        0 < s.blk.rxCnt.toNat ∧ s.blk.rxCnt.toNat < s.headerSize)
    ∧ (s.blk.faState = .payloadPartial ↔
        s.headerSize ≤ s.blk.rxCnt.toNat ∧ s.blk.rxCnt.toNat < s.headerSize + s.blk.payLen.toNat)
    ∧ (s.blk.faState = .payloadPartial → s.blk.payLen = s.headerPayLen ∧ 0 < s.blk.payLen.toNat)
    ∧ (s.blk.faState ≠ .payloadPartial → s.blk.payLen = 0)

/-- The lock covers everything (R38). -/
abbrev State.LockCovers (s : State) : Prop :=
  (s.blk.timerArmed = true → s.blk.txLock = true)
    ∧ (s.blk.faState ≠ .idle → s.blk.timerArmed = true)
    ∧ (s.blk.txState ≠ .txIdle → s.blk.txLock = true)
    ∧ (s.blk.txState = .gap → s.blk.timerArmed = true)

/-- Transmit shape (R39). The clauses about the frame hold through the Gap too, where moreover every byte has been
accepted. -/
abbrev State.TransmitShape (s : State) : Prop :=
  (s.blk.dir = .transmit ↔ s.blk.txState = .sending)
    ∧ (s.blk.txState ≠ .txIdle →
        s.headerSize ≤ s.blk.txLen.toNat ∧ s.blk.txLen.toNat ≤ s.bufSize
          ∧ s.blk.txLen.toNat = s.headerSize + (s.byte .txb (s.headerSize - 1)).toNat
          ∧ s.blk.txIdx.toNat ≤ s.blk.txLen.toNat ∧ (s.byte .txb 0).toNat ≤ 3)
    ∧ (s.blk.txState = .gap → s.blk.txIdx = s.blk.txLen)
    ∧ (s.blk.txState = .txIdle → s.blk.txLen = 0 ∧ s.blk.txIdx = 0)

/-- The lock can always be released (R40). -/
abbrev State.LockReleasable (s : State) : Prop :=
  s.blk.txLock = true → s.blk.timerArmed = true ∨ s.blk.txState = .sending

/-- Both buffers are in canonical form and list no index outside the buffer (R35). -/
abbrev State.BuffersCanonical (s : State) : Prop :=
  Mem.wf s.blk.buf = true ∧ Mem.below s.bufSize s.blk.buf = true
    ∧ Mem.wf s.blk.txb = true ∧ Mem.below s.bufSize s.blk.txb = true

/-- Every byte a rule can still read has been written (R24, R28): "no rule reads them before writing them" (R33). -/
abbrev State.LiveBytesWritten (s : State) : Prop :=
  (∀ a < s.blk.rxCnt.toNat, (Mem.find a s.blk.buf).isSome = true)
    ∧ (∀ a < s.blk.txLen.toNat, (Mem.find a s.blk.txb).isSome = true)

/-- The block's records agree with the collaborators: `timer_armed` with the timer (R29), `dir` with the line driver (R26),
and the accepted bytes are the first `tx_idx` of the frame (R61). -/
abbrev State.EnvMirrored (s : State) : Prop :=
  s.env.timerRunning = s.blk.timerArmed ∧ s.env.driver = s.blk.dir
    ∧ (s.blk.txState ≠ .txIdle → s.env.sent = s.bytes .txb 0 s.blk.txIdx.toNat)

/-- The invariant of the machine (R37 to R40, with the model's own parts). -/
abbrev State.Inv (s : State) : Prop :=
  s.AssemblerShape ∧ s.LockCovers ∧ s.TransmitShape ∧ s.LockReleasable ∧ s.BuffersCanonical
    ∧ s.LiveBytesWritten ∧ s.EnvMirrored

/-! ### The outcome of every operation in every state (R141) -/

/-- The classes of R141. -/
inductive StateClass where
  /-- Q: Quiescent. -/
  | quiescent
  /-- L: locked by received bytes. -/
  | locked
  /-- S<: sending, bytes left. -/
  | sendingMore
  /-- S=: sending, all bytes accepted. -/
  | sendingDone
  /-- G: the idle gap. -/
  | gap
  deriving DecidableEq, Repr

/-- The class of a state (R141). -/
def State.classOf (s : State) : StateClass :=
  if s.blk.txLock then
    match s.blk.txState with
    | .txIdle => .locked
    | .sending => if s.blk.txIdx.toNat < s.blk.txLen.toNat then .sendingMore else .sendingDone
    | .gap => .gap
  else .quiescent

/-- The word of R141's table; none for *refused*. `armed` is `timer_armed`. -/
def outcomeTable (c : CmdBytes) (armed : Bool) (k : StateClass) : Instr → Option OutcomeWord
  | .rst => some .performed
  | .rxb _ => some .performed
  | .tmo => if armed then some .performed else some .ignored
  | .snd m => if m.wf c then (if k = .quiescent then some .performed else some .held) else none
  | .txb => if k = .sendingMore then some .performed else some .notEnabled
  | .trn => if k = .sendingDone then some .performed else some .notEnabled

/-! ### What a well-behaved environment offers -/

/-- The contracts of the collaborators and the duties of the Host: the Timer fires only while it runs (R166), the Sink
accepts only a presented byte (R167), the Block turns the line only when due (R123), the Host sends well-formed messages
(R173) and resets first (R181). -/
abbrev State.Offers (s : State) (i : Instr) : Prop :=
  (s.started = true ∨ i = .rst)
    ∧ (i = .tmo → s.env.timerRunning = true) ∧ (i = .txb → s.txEnabled = true)
    ∧ (i = .trn → s.trnEnabled = true) ∧ i.wf s.cmdBytes = true

/-- A state before the first `RST` (R180): every element of the block is unspecified, so the block is an argument, and so is
the instance. -/
def State.beforeReset (c : CmdBytes) (b : Block) : State := { State.reset with started := false, cmdBytes := c, blk := b }

/-! ### Stale bytes (R24, R28, S2) -/

/-- The block without the contents of its buffers. -/
def Block.registers (k : Block) : Block := { k with buf := [], txb := [] }

/-- Two states that differ at most in bytes no rule reads: `buf` at `rx_cnt` and above, `txb` at `tx_len` and above, and
in what the unspecified contents are. -/
abbrev State.SameButStale (s t : State) : Prop :=
  { s with blk := s.blk.registers, resetGen := 0 } = { t with blk := t.blk.registers, resetGen := 0 }
    ∧ (∀ a < s.blk.rxCnt.toNat, s.byte .buf a = t.byte .buf a)
    ∧ (∀ a < s.blk.txLen.toNat, s.byte .txb a = t.byte .txb a)

/-! ### Runs (R145) and fairness (R195) -/

/-- An infinite run: the states that a sequence of operations passes through (R59, R145). -/
abbrev IsRun (ops : Nat → Instr) (st : Nat → State) : Prop :=
  ∀ n, exec (ops n) (st n) = .next (st (n + 1))

/-- F1 (R195): a running timer that is not restarted or cancelled for ever eventually fires. -/
abbrev TimerFair (ops : Nat → Instr) (st : Nat → State) : Prop :=
  ∀ n, (st n).env.timerRunning = true →
    ∃ m, n ≤ m ∧ (ops m = .tmo ∨ setsTimer (st (m + 1)).actions = true)

/-- F2 (R195): if `TXB` stays enabled, it eventually occurs. -/
abbrev SinkFair (ops : Nat → Instr) (st : Nat → State) : Prop :=
  ∀ n, (∀ m, n ≤ m → (st m).txEnabled = true) → ∃ m, n ≤ m ∧ ops m = .txb

/-- F3 (R195): if `TRN` stays enabled, it eventually occurs. -/
abbrev TurnFair (ops : Nat → Instr) (st : Nat → State) : Prop :=
  ∀ n, (∀ m, n ≤ m → (st m).trnEnabled = true) → ∃ m, n ≤ m ∧ ops m = .trn

/-- A performed `SND m` as the `n`-th operation of a run (R121). -/
abbrev SendsAt (ops : Nat → Instr) (st : Nat → State) (n : Nat) (m : Message) : Prop :=
  ops n = .snd m ∧ (st (n + 1)).outcomes = [.performed]

/-- The Host's requests along a run (R36, R173): `wants n` is the message whose `send` is waiting in the state `st n`, none
where no caller waits (log 19: the form is the model's). The Host supplies well-formed messages, and the block has one request port (R121), so that a `SND`
is attempted only of the message that waits. -/
abbrev HostRequests (ops : Nat → Instr) (st : Nat → State) (wants : Nat → Option Message) : Prop :=
  (∀ n m, wants n = some m → m.wf (st n).cmdBytes = true) ∧ (∀ n m, ops n = .snd m → wants n = some m)

/-- F4 (R195): a Host that requests a `SND` keeps requesting until it is performed; and if the waiting `SND` stays
performable, the lock being free, it eventually occurs: "it is performed in the first later state with `tx_lock = 0` in
which the Host is still requesting" (R121), read as weak fairness like F2 and F3 (log 19). -/
abbrev HostFair (ops : Nat → Instr) (st : Nat → State) (wants : Nat → Option Message) : Prop :=
  (∀ n m, wants n = some m → SendsAt ops st n m ∨ wants (n + 1) = some m)
    ∧ (∀ n m, (∀ k, n ≤ k → wants k = some m ∧ (st k).blk.txLock = false) → ∃ k, n ≤ k ∧ ops k = .snd m)

/-- The send performed as the `k`-th operation ends with the `j`-th: the first `TMO` after it that emits `SNDDONE` (R103), or
an `RST` before that, which the Host "must treat as the end of that send" (R140). -/
abbrev SendEndsAt (ops : Nat → Instr) (st : Nat → State) (k j : Nat) : Prop :=
  k < j ∧ ((ops j = .tmo ∧ .snddone ∈ (st (j + 1)).actions) ∨ ops j = .rst)
    ∧ ∀ i, k < i → i < j → ops i ≠ .rst ∧ .snddone ∉ (st (i + 1)).actions ∧ ∀ m, ¬ SendsAt ops st i m

/-- From some point on no byte arrives (R196). -/
abbrev LineFallsSilent (ops : Nat → Instr) : Prop := ∃ n, ∀ m, n ≤ m → ∀ b, ops m ≠ .rxb b

/-- The operations that are still due once the line is silent (R196): the bytes left, the turnaround, the timer. -/
def State.drainOps (s : State) : List Instr :=
  (match s.blk.txState with
    | .sending => List.replicate (s.blk.txLen.toNat - s.blk.txIdx.toNat) Instr.txb ++ [Instr.trn]
    | .gap => []
    | .txIdle => []) ++ [Instr.tmo]

/-! ### Parts of a run -/

/-- The actions that report a completed frame: `RXDONE` and `RXERR` (R101). -/
def Action.completes : Action → Bool
  | .rxdone _ => true
  | .rxerr _ => true
  | .tstart => false
  | .tcancel => false
  | .dir _ => false
  | .tx _ => false
  | .flush _ => false
  | .snddone => false

/-- The completed frames among actions (R107). -/
def completions (acts : List Action) : List Action := acts.filter Action.completes

/-- The bytes that actions put on the line, in order (R61, R127). -/
def lineBytes (acts : List Action) : List Byte := acts.filterMap Action.lineByte?

/-- The operand of an `RXB`. -/
def rxOperand? : Instr → Option Byte
  | .rxb b => some b
  | .rst => none
  | .tmo => none
  | .snd _ => none
  | .txb => none
  | .trn => none

/-- The bytes that operations receive, in order (R60). -/
def rxOperands (ops : List Instr) : List Byte := ops.filterMap rxOperand?

/-- No `TMO` among operations is performed: each has the word *ignored* (R107). -/
abbrev TimeoutsIgnored (ops : List Instr) (words : List OutcomeWord) : Prop :=
  ∀ p ∈ ops.zip words, p.1 = .tmo → p.2 = .ignored

/-- Every `SND` among operations is held (R127). -/
abbrev SendsHeld (ops : List Instr) (words : List OutcomeWord) : Prop :=
  ∀ p ∈ ops.zip words, ∀ m, p.1 = .snd m → p.2 = .held

end Sys2Proof.Machine
end

