-- ==== Sys2Proof/Certificates/Slice0/Obligations.lean ====
section
/-! DEFINITION. The statements for the provers, from the numbered rules of spec/. Each docstring names its rule. -/

open Sys2Proof Sys2Proof.Machine

/-! ### RST and reset -/

/-- R140: `RST` is performed in every state, whatever it is; it emits exactly TCANCEL and DIR(Receive) and leaves every
register as R33 lists it; a clock cycle with `rst` is `RST` alone, whatever else happens in it. Two clauses are the model's
choice: that the contents of the buffers, which R140 calls unspecified, are the free value of a new generation (log 4), and
that the state counts as started (log 5). -/
def Obligations.RstReturnsToQuiescent : Prop :=
  ∀ s : State, ∃ t : State, exec .rst s = .next t ∧ t.Quiescent ∧ t.started = true
    ∧ t.outcomes = [.performed] ∧ t.actions = [.tcancel, .dir .receive]
    ∧ t.env.timerRunning = false ∧ t.env.driver = .receive
    ∧ (∀ w a, t.byte w a = Config.unspecifiedByte (s.resetGen + 1) w a)
    ∧ (∀ p : PortIn, p.rst = true → clockCycle p s = .next t)

/-- R33: the state after reset is Quiescent and meets the invariant. -/
def Obligations.ResetStateMeetsInvariant : Prop :=
  State.reset.Quiescent ∧ State.reset.Inv ∧ State.reset.cmdBytes.count = 1

/-- R33, R37 to R40: `RST` establishes the invariant from any state at all, the state before the first `RST` (R180)
among them. -/
def Obligations.RstEstablishesInvariant : Prop :=
  ∀ s t : State, exec .rst s = .next t → t.Inv ∧ t.started = true

/-- R180, R181: before the first `RST`, whatever the state and the instance, every other operation is refused, and so is a
clock cycle without `rst` (the flag and the refusal's name are the model's choice, log 5); `RST` is performed. -/
def Obligations.OnlyRstBeforeFirstReset : Prop :=
  ∀ (s : State) (i : Instr) (p : PortIn), s.started = false →
    (i ≠ .rst → exec i s = .refused .beforeReset)
    ∧ (p.rst = false → clockCycle p s = .refused .beforeReset)
    ∧ (p.rst = true → ∃ t, clockCycle p s = .next t ∧ t.Quiescent ∧ t.started = true)

/-! ### RXB -/

/-- R100, R101: `RXB b` is performed in every state; it sets the lock, starts the timer and stores the byte; the byte that
completes the frame hands the whole frame over and returns to Idle, every other byte goes on as the table says. -/
def Obligations.RxbFollowsPseudocode : Prop :=
  ∀ (s : State) (b : Byte), s.Inv → s.started = true →
    ∃ t : State, exec (.rxb b) s = .next t ∧ t.outcomes = [.performed]
      ∧ t.blk.txLock = true ∧ t.blk.timerArmed = true ∧ t.blk.dir = s.blk.dir
      ∧ t.byte .buf s.blk.rxCnt.toNat = b
      ∧ (if (s.blk.rxCnt.toNat + 1 = s.headerSize ∧ b = 0)
            ∨ (s.blk.faState = .payloadPartial
                ∧ s.blk.rxCnt.toNat + 1 = s.headerSize + s.blk.payLen.toNat) then
          t.blk.faState = .idle ∧ t.blk.rxCnt = 0 ∧ t.blk.payLen = 0
            ∧ t.actions = [.tstart,
                if deserialize s.cmdBytes (s.rxFrame ++ [b]) = .framingError
                  then .rxerr (s.rxFrame ++ [b]) else .rxdone (s.rxFrame ++ [b])]
        else
          t.blk.rxCnt.toNat = s.blk.rxCnt.toNat + 1 ∧ t.actions = [.tstart]
            ∧ (if s.blk.rxCnt.toNat + 1 < s.headerSize then
                t.blk.faState = .headerPartial ∧ t.blk.payLen = 0
              else if s.blk.rxCnt.toNat + 1 = s.headerSize then
                t.blk.faState = .payloadPartial ∧ t.blk.payLen = b
              else t.blk.faState = .payloadPartial ∧ t.blk.payLen = s.blk.payLen))

/-- R53, R100: what `RXB` leaves unchanged: everything but the assembler, the lock, the timer, `rxf_len` and the
collaborators it acts on; of the buffers only `buf[rx_cnt]`. -/
def Obligations.RxbFrame : Prop :=
  ∀ (s t : State) (b : Byte), exec (.rxb b) s = .next t →
    t = { s with
          blk := { s.blk with
            faState := t.blk.faState, rxCnt := t.blk.rxCnt, payLen := t.blk.payLen, buf := t.blk.buf
            txLock := t.blk.txLock, timerArmed := t.blk.timerArmed }
          rxfLen := t.rxfLen
          env := { s.env with timerRunning := t.env.timerRunning, surfaced := t.env.surfaced }
          actions := t.actions
          outcomes := t.outcomes }
    ∧ (∀ a, a ≠ s.blk.rxCnt.toNat → t.byte .buf a = s.byte .buf a)
    ∧ (∀ a, t.byte .txb a = s.byte .txb a)

/-- R106: after the byte that completes a frame the assembler is Idle with the lock held and the timer running; a send
requested then is held, and (no send being under way) the next `TMO` releases the lock without any action. -/
def Obligations.CompletedFrameHoldsLockForGap : Prop :=
  ∀ (s t : State) (b : Byte) (m : Message), s.Inv → exec (.rxb b) s = .next t → completions t.actions ≠ [] →
    t.blk.faState = .idle ∧ t.blk.txLock = true ∧ t.blk.timerArmed = true
    ∧ (m.wf t.cmdBytes = true →
        exec (.snd m) t = .next { t with actions := [], outcomes := [.held] })
    ∧ (t.blk.txState = .txIdle →
        ∃ u, exec .tmo t = .next u ∧ u.actions = [] ∧ u.Quiescent)

/-! ### TMO -/

/-- R103: ignored when the timer is not running; otherwise the timer is spent, a frame in progress is flushed, and the lock
is released unless a local send is pushing bytes. -/
def Obligations.TmoFollowsFourCases : Prop :=
  ∀ s : State, s.started = true →
    (s.blk.timerArmed = false → exec .tmo s = .next { s with actions := [], outcomes := [.ignored] })
    ∧ (s.blk.timerArmed = true → ∃ t : State, exec .tmo s = .next t ∧ t.outcomes = [.performed]
      ∧ t.blk.timerArmed = false ∧ t.blk.dir = s.blk.dir
      ∧ t.actions = (if s.blk.faState = .idle then [] else [.flush s.blk.rxCnt])
          ++ (if s.blk.txState = .gap then [.snddone] else [])
      ∧ t.blk.faState = .idle
      ∧ (s.blk.faState ≠ .idle → t.blk.rxCnt = 0 ∧ t.blk.payLen = 0)
      ∧ (s.blk.faState = .idle → t.blk.rxCnt = s.blk.rxCnt ∧ t.blk.payLen = s.blk.payLen)
      ∧ (s.blk.txState = .sending → t.blk.txLock = s.blk.txLock ∧ t.blk.txState = .sending
          ∧ t.blk.txLen = s.blk.txLen ∧ t.blk.txIdx = s.blk.txIdx)
      ∧ (s.blk.txState ≠ .sending → t.blk.txLock = false ∧ t.blk.txState = .txIdle
          ∧ t.blk.txLen = 0 ∧ t.blk.txIdx = 0))

/-- R53, R103: what `TMO` leaves unchanged: everything but the registers R103 names and the timer; no buffer byte
changes. -/
def Obligations.TmoFrame : Prop :=
  ∀ s t : State, exec .tmo s = .next t →
    t = { s with
          blk := { s.blk with
            faState := t.blk.faState, rxCnt := t.blk.rxCnt, payLen := t.blk.payLen
            txLock := t.blk.txLock, txState := t.blk.txState, txLen := t.blk.txLen
            txIdx := t.blk.txIdx, timerArmed := t.blk.timerArmed }
          env := { s.env with timerRunning := t.env.timerRunning }
          actions := t.actions
          outcomes := t.outcomes }
    ∧ (∀ w a, t.byte w a = s.byte w a)

/-! ### SND -/

/-- R121: an ill-formed message is refused whatever the lock; a well-formed one is held while the lock is set, nothing
changing; else the lock is taken, the line switched and the whole frame latched. Two points are the model's: well-formed
includes that the command fits `CMD_BYTES`, so the refusal clause holds for a wider command too (log 8), and a held `SND` is
a next state with its outcome word (log 6). -/
def Obligations.SndPerformedHeldOrRefused : Prop :=
  ∀ (s : State) (m : Message), s.started = true →
    (m.wf s.cmdBytes = false → exec (.snd m) s = .refused .illFormedSend)
    ∧ (m.wf s.cmdBytes = true → s.blk.txLock = true →
        exec (.snd m) s = .next { s with actions := [], outcomes := [.held] })
    ∧ (m.wf s.cmdBytes = true → s.blk.txLock = false →
        ∃ t : State, exec (.snd m) s = .next t ∧ t.outcomes = [.performed]
          ∧ t.actions = [.dir .transmit] ∧ t.blk.txLock = true ∧ t.blk.dir = .transmit
          ∧ t.blk.timerArmed = s.blk.timerArmed ∧ t.blk.txState = .sending
          ∧ t.txFrame = serialize s.cmdBytes m
          ∧ t.blk.txLen.toNat = s.headerSize + m.payload.length ∧ t.blk.txIdx = 0)

/-- R53, R121: what `SND` leaves unchanged: everything but the arbiter's registers, the first bytes of `txb` (as many as
the frame has) and the line driver; no byte of `buf` changes. -/
def Obligations.SndFrame : Prop :=
  ∀ (s t : State) (m : Message), exec (.snd m) s = .next t →
    t = { s with
          blk := { s.blk with
            txLock := t.blk.txLock, dir := t.blk.dir, txState := t.blk.txState, txb := t.blk.txb
            txLen := t.blk.txLen, txIdx := t.blk.txIdx }
          env := { s.env with driver := t.env.driver, sent := t.env.sent }
          actions := t.actions
          outcomes := t.outcomes }
    ∧ (∀ a, t.byte .buf a = s.byte .buf a)
    ∧ (∀ a, (serialize s.cmdBytes m).length ≤ a → t.byte .txb a = s.byte .txb a)

/-- R41: a local send begins only in a Quiescent state. -/
def Obligations.SendBeginsOnlyWhenQuiescent : Prop :=
  ∀ (s t : State) (m : Message), s.Inv → exec (.snd m) s = .next t → t.outcomes = [.performed] → s.Quiescent

/-! ### TXB and TRN -/

/-- R122: enabled while bytes are left, `TXB` hands over the presented byte and counts it; otherwise it is not enabled. That
an attempt that is not enabled is a next state in which only the reports change is the model's reading of D28 (log 6). -/
def Obligations.TxbHandsOverPresentedByte : Prop :=
  ∀ s : State, s.Inv → s.started = true →
    (s.blk.txState = .sending ∧ s.blk.txIdx.toNat < s.blk.txLen.toNat →
      ∃ t : State, exec .txb s = .next t ∧ t.outcomes = [.performed]
        ∧ t.actions = [.tx (s.byte .txb s.blk.txIdx.toNat)]
        ∧ t.blk = { s.blk with txIdx := t.blk.txIdx } ∧ t.blk.txIdx.toNat = s.blk.txIdx.toNat + 1)
    ∧ (¬ (s.blk.txState = .sending ∧ s.blk.txIdx.toNat < s.blk.txLen.toNat) →
      exec .txb s = .next { s with actions := [], outcomes := [.notEnabled] })

/-- R123: when every byte has been accepted `TRN` turns the line and starts the gap; otherwise it is not enabled. That an
attempt that is not enabled is a next state in which only the reports change is the model's reading of D28 (log 6). -/
def Obligations.TrnTurnsLineAround : Prop :=
  ∀ s : State, s.started = true →
    (s.blk.txState = .sending ∧ s.blk.txIdx = s.blk.txLen →
      ∃ t : State, exec .trn s = .next t ∧ t.outcomes = [.performed]
        ∧ t.actions = [.dir .receive, .tstart]
        ∧ t.blk = { s.blk with dir := .receive, timerArmed := true, txState := .gap })
    ∧ (¬ (s.blk.txState = .sending ∧ s.blk.txIdx = s.blk.txLen) →
      exec .trn s = .next { s with actions := [], outcomes := [.notEnabled] })

/-- R53: what `TXB`, `TRN` and `RST` leave unchanged. `TXB` and `TRN` touch no buffer byte; of what lies outside the block
`RST` changes only the timer, the line driver and the model's own fields `started` and `resetGen` (log 4, log 5): that it
leaves `rxf_len` (log 14) and the lists of sent bytes and surfaced frames (log 7) is the model's choice. -/
def Obligations.TxbTrnRstFrame : Prop :=
  ∀ s t : State,
    (exec .txb s = .next t →
      t = { s with
            blk := { s.blk with txIdx := t.blk.txIdx }
            env := { s.env with sent := t.env.sent }
            actions := t.actions, outcomes := t.outcomes }
      ∧ ∀ w a, t.byte w a = s.byte w a)
    ∧ (exec .trn s = .next t →
      t = { s with
            blk := { s.blk with
              dir := t.blk.dir, txState := t.blk.txState, timerArmed := t.blk.timerArmed }
            env := { s.env with timerRunning := t.env.timerRunning, driver := t.env.driver }
            actions := t.actions, outcomes := t.outcomes }
      ∧ ∀ w a, t.byte w a = s.byte w a)
    ∧ (exec .rst s = .next t →
      t = { s with
            blk := t.blk, started := t.started, resetGen := t.resetGen
            env := { s.env with timerRunning := t.env.timerRunning, driver := t.env.driver }
            actions := t.actions, outcomes := t.outcomes })

/-! ### Flags -/

/-- R120: the complete list of writes to `tx_lock`. -/
def Obligations.LockWrites : Prop :=
  ∀ (i : Instr) (s t : State), exec i s = .next t →
    (s.blk.txLock = false → (t.blk.txLock = true ↔
        (∃ b, i = .rxb b) ∨ (∃ m, i = .snd m ∧ t.outcomes = [.performed])))
    ∧ (s.blk.txLock = true → (t.blk.txLock = false ↔
        i = .rst ∨ (i = .tmo ∧ t.outcomes = [.performed] ∧ s.blk.txState ≠ .sending)))

/-- R34, R128: what writes `dir` and `timer_armed`, operation by operation. -/
def Obligations.DirectionAndTimerWrites : Prop :=
  ∀ (i : Instr) (s t : State), exec i s = .next t →
    (match i with
      | .rst => t.blk.dir = .receive ∧ t.blk.timerArmed = false
      | .rxb _ => t.blk.dir = s.blk.dir ∧ t.blk.timerArmed = true
      | .tmo => t.blk.dir = s.blk.dir ∧ t.blk.timerArmed = false
      | .snd _ => t.blk.dir = (if s.blk.txLock then s.blk.dir else .transmit)
          ∧ t.blk.timerArmed = s.blk.timerArmed
      | .txb => t.blk.dir = s.blk.dir ∧ t.blk.timerArmed = s.blk.timerArmed
      | .trn => t.blk.dir = (if s.trnEnabled then .receive else s.blk.dir)
          ∧ t.blk.timerArmed = (s.trnEnabled || s.blk.timerArmed))

/-- R128: the block turns the line to Transmit only from Receive, and back only from Transmit, except by `RST`; a `TMO`
never turns it. -/
def Obligations.DirectionAlternates : Prop :=
  ∀ (i : Instr) (s t : State), s.Inv → exec i s = .next t →
    (.dir .transmit ∈ t.actions → s.blk.dir = .receive ∧ t.blk.dir = .transmit ∧ ∃ m, i = .snd m)
    ∧ (.dir .receive ∈ t.actions → t.blk.dir = .receive ∧ (i = .rst ∨ (i = .trn ∧ s.blk.dir = .transmit)))
    ∧ (t.blk.dir ≠ s.blk.dir → .dir t.blk.dir ∈ t.actions)

/-! ### Invariants and whole-machine rules -/

/-- R37, R38, R39, R40: every operation keeps the invariant, and in a state that meets it a free lock means Quiescent. Beside
those rules the invariant holds the model's own parts: the transmit shape in the Gap as well (log 18), the canonical form
of the buffers and the bytes written in them (log 4), and the mirrored collaborators (log 7). -/
def Obligations.InvariantKeptByEveryOperation : Prop :=
  ∀ (i : Instr) (s t : State), s.Inv → exec i s = .next t →
    t.Inv ∧ (t.blk.txLock = false → t.Quiescent)

/-- Every step of the machine, an operation of the trace or a clock cycle, keeps the invariant. -/
def Obligations.StepKeepsInvariant : Prop :=
  ∀ s t : State, s.Inv → step s = .next t → t.Inv

/-- R52, R109: from a state that meets the invariant no operation and no step faults: no counter leaves its buffer. -/
def Obligations.InvariantExcludesFaults : Prop :=
  ∀ (s : State) (f : Fault), s.Inv → (∀ i, exec i s ≠ .fault f) ∧ step s ≠ .fault f

/-- R141: the outcome of every operation in every class of state, with what the table says beside the word. That held,
ignored and not enabled are next states with nothing changed is the model's (log 6), and the row of ill-formed messages
includes a command wider than `CMD_BYTES` (log 8). -/
def Obligations.OutcomeOfEveryOperation : Prop :=
  ∀ (i : Instr) (s : State), s.Inv → s.started = true →
    (match outcomeTable s.cmdBytes s.blk.timerArmed s.classOf i with
      | some w => ∃ t, exec i s = .next t ∧ t.outcomes = [w]
          ∧ (i = .tmo ∧ w = .performed →
              t.blk.txLock = decide (s.classOf = .sendingMore ∨ s.classOf = .sendingDone)
              ∧ (.snddone ∈ t.actions ↔ s.classOf = .gap))
          ∧ (w ≠ .performed → t.blk = s.blk ∧ t.actions = [])
      | none => exec i s = .refused .illFormedSend)
    ∧ (s.classOf = .quiescent → s.Quiescent)
    ∧ (s.classOf = .locked ∨ s.classOf = .gap → s.blk.timerArmed = true)

/-- R166, R167, R173: what a well-behaved environment offers is performed, or held if it is a send; nothing is ignored, not
enabled or refused. -/
def Obligations.OfferedOperationsPerformedOrHeld : Prop :=
  ∀ (i : Instr) (s : State), s.Inv → s.Offers i →
    ∃ t, exec i s = .next t
      ∧ (t.outcomes = [.performed] ∨ (t.outcomes = [.held] ∧ ∃ m, i = .snd m))

/-- R101, R150, R151, R152: what is reported, and when. A frame is handed over by the `RXB` that makes the bytes received as
long as their own header declares: as a FramingError if its `target_mode` is greater than 03, else as a message, in both
cases the whole frame. `FLUSH` is reported by a performed `TMO` that finds a frame in progress, with the number of its
bytes, 1 to `BUF_SIZE - 1`. No other operation reports either, and none reports two. -/
def Obligations.ReportsOfFramesAndTimeouts : Prop :=
  ∀ (i : Instr) (s t : State), s.Inv → exec i s = .next t →
    (∀ F, .rxerr F ∈ t.actions ↔ 3 < (byteAt F 0).toNat ∧ s.headerSize ≤ F.length
        ∧ F.length = declaredLength s.cmdBytes F ∧ ∃ b, i = .rxb b ∧ F = s.rxFrame ++ [b])
    ∧ (∀ F, .rxdone F ∈ t.actions ↔ ¬ 3 < (byteAt F 0).toNat ∧ s.headerSize ≤ F.length
        ∧ F.length = declaredLength s.cmdBytes F ∧ ∃ b, i = .rxb b ∧ F = s.rxFrame ++ [b])
    ∧ (∀ n, .flush n ∈ t.actions ↔ i = .tmo ∧ s.blk.timerArmed = true ∧ s.blk.faState ≠ .idle ∧ n = s.blk.rxCnt)
    ∧ (∀ n, .flush n ∈ t.actions → 1 ≤ n.toNat ∧ n.toNat ≤ s.bufSize - 1)
    ∧ (t.actions.filter (fun a => a.completes || (Action.flushLen? a).isSome)).length ≤ 1

/-- R59: any sequence of well-formed operations runs to its end from a state that meets the invariant, with one outcome
word each. -/
def Obligations.RunsReachTheirEnd : Prop :=
  ∀ (ops : List Instr) (s : State), s.Inv → s.started = true → (∀ i ∈ ops, i.wf s.cmdBytes = true) →
    ∃ t, performAll ops s = .next t ∧ t.Inv ∧ t.outcomes.length = ops.length

/-- R24, R28, R142: no operation reads a stale or unspecified byte: from two states that differ at most in such bytes it
gives the same outcome, again with at most such differences. -/
def Obligations.StaleBytesNeverRead : Prop :=
  ∀ (i : Instr) (s t : State), s.SameButStale t →
    (∀ s', exec i s = .next s' → ∃ t', exec i t = .next t' ∧ s'.SameButStale t')
    ∧ (∀ f, exec i s = .fault f → exec i t = .fault f)
    ∧ (∀ r, exec i s = .refused r → exec i t = .refused r)

/-- R124: `tx_state` changes only from TxIdle to Sending by `SND`, from Sending to Gap by `TRN`, from Gap to TxIdle by `TMO`,
and to TxIdle by `RST`. -/
def Obligations.SendPhasesInOrder : Prop :=
  ∀ (i : Instr) (s t : State), s.Inv → exec i s = .next t → t.blk.txState ≠ s.blk.txState →
    (s.blk.txState = .txIdle ∧ t.blk.txState = .sending ∧ ∃ m, i = .snd m)
    ∨ (s.blk.txState = .sending ∧ t.blk.txState = .gap ∧ i = .trn)
    ∨ (s.blk.txState = .gap ∧ t.blk.txState = .txIdle ∧ i = .tmo)
    ∨ (t.blk.txState = .txIdle ∧ i = .rst)

/-- R164: `RST` apart, only `RXB` changes `buf` and only `SND` changes `txb`; the asynchronous context (`RXB`, `TMO`) never
changes `dir`, and the synchronous one (`SND`, `TXB`, `TRN`) never changes the assembler. -/
def Obligations.ContextsKeepApart : Prop :=
  ∀ (i : Instr) (s t : State), exec i s = .next t → i ≠ .rst →
    ((∀ b, i ≠ .rxb b) → t.blk.buf = s.blk.buf)
    ∧ ((∀ m, i ≠ .snd m) → t.blk.txb = s.blk.txb)
    ∧ (i = .tmo ∨ (∃ b, i = .rxb b) → t.blk.dir = s.blk.dir)
    ∧ (i ≠ .tmo ∧ (∀ b, i ≠ .rxb b) →
        t.blk.faState = s.blk.faState ∧ t.blk.rxCnt = s.blk.rxCnt ∧ t.blk.payLen = s.blk.payLen)

/-! ### Encodings -/

/-- R76: `deserialize` and `serialize` are inverse to each other, each where it is defined. -/
def Obligations.SerializeDeserializeRoundTrip : Prop :=
  ∀ c : CmdBytes,
    (∀ m : Message, m.wf c = true → deserialize c (serialize c m) = .message m)
    ∧ (∀ (F : List Byte) (m : Message), c.headerSize ≤ F.length → F.length = declaredLength c F →
        deserialize c F = .message m → m.wf c = true ∧ serialize c m = F)

/-- R55, R70, R74: the place of every field in the frame of a message, and the frame's length. -/
def Obligations.FrameLayout : Prop :=
  ∀ (c : CmdBytes) (m : Message), m.wf c = true →
    byteAt (serialize c m) 0 = m.mode.code
    ∧ le16 (byteAt (serialize c m) 1) (byteAt (serialize c m) 2) = m.target
    ∧ le16 (byteAt (serialize c m) 3) (byteAt (serialize c m) 4) = m.source
    ∧ (c = .one → (byteAt (serialize c m) 5).toNat = m.command.toNat)
    ∧ (c = .two → le16 (byteAt (serialize c m) 5) (byteAt (serialize c m) 6) = m.command)
    ∧ (byteAt (serialize c m) (5 + c.count)).toNat = m.payload.length
    ∧ (serialize c m).drop (6 + c.count) = m.payload
    ∧ (serialize c m).length = c.headerSize + m.payload.length

/-- R75, R151: a FramingError is exactly a `target_mode` byte greater than 03; no other field is validated. -/
def Obligations.FramingErrorIffBadTargetMode : Prop :=
  ∀ (c : CmdBytes) (F : List Byte), deserialize c F = .framingError ↔ 3 < (byteAt F 0).toNat

/-- R84: reserved codes, truncated operations and an embedded frame with a bad `target_mode` are refused, and the step
refuses with them. -/
def Obligations.IllFormedTracesRefused : Prop :=
  ∀ (c : CmdBytes) (b : Byte) (rest : List Byte),
    (6 ≤ b.toNat → decode c (b :: rest) = .refused (.reservedCode b))
    ∧ decode c [0x01] = .refused (.truncated .RXB)
    ∧ (rest.length < c.headerSize ∨ rest.length < declaredLength c rest →
        decode c (0x03 :: rest) = .refused (.truncated .SND))
    ∧ (c.headerSize ≤ rest.length → declaredLength c rest ≤ rest.length → 3 < (byteAt rest 0).toNat →
        decode c (0x03 :: rest) = .refused (.badTargetMode (byteAt rest 0)))
    ∧ (∀ (s : State) (e : DecodeError), s.cmdBytes = c → s.trace = b :: rest →
        decode c (b :: rest) = .refused e → step s = .refused (.illFormedTrace e))

/-- R82, R83: decoding the encoding of any well-formed operation gives it back, with the bytes after it. -/
def Obligations.DecodeOfEncode : Prop :=
  ∀ (c : CmdBytes) (i : Instr) (rest : List Byte), i.wf c = true → decode c (encode c i ++ rest) = .op i rest

/-- R82, R83: whatever is decoded is well-formed and its encoding is the bytes read: each trace has one meaning. -/
def Obligations.EncodeOfDecode : Prop :=
  ∀ (c : CmdBytes) (bytes rest : List Byte) (i : Instr), decode c bytes = .op i rest →
    i.wf c = true ∧ bytes = encode c i ++ rest

/-- R83 and 95_test_vectors.md V36 to V38: a few traces written out. -/
def Obligations.DecodeKnownTraces : Prop :=
  decode .one [0x00, 0x01, 0xDE, 0x02] = .op .rst [0x01, 0xDE, 0x02]
  ∧ decode .one [0x01, 0xDE, 0x02] = .op (.rxb 0xDE) [0x02]
  ∧ decode .one [0x02] = .op .tmo []
  ∧ decode .one [0x03, 0x00, 0x00, 0x00, 0x07, 0x00, 0x01, 0x00, 0x04, 0x04]
      = .op (.snd ⟨.broadcast, 0x0000, 0x0007, 0x01, []⟩) [0x04, 0x04]
  ∧ decode .two [0x03, 0x01, 0x02, 0x01, 0x0B, 0x0A, 0x34, 0x12, 0x02, 0xDE, 0xAD]
      = .op (.snd ⟨.byId, 0x0102, 0x0A0B, 0x1234, [0xDE, 0xAD]⟩) []
  ∧ decode .one [0x04, 0x04] = .op .txb [0x04]
  ∧ decode .one [0x05] = .op .trn []

/-! ### The step and the ports -/

/-- While the trace holds bytes, a step is `exec` of the operation they decode to, in the state whose trace holds the bytes
after it; nothing else is added. -/
def Obligations.StepRunsDecodedOperation : Prop :=
  ∀ (s : State) (i : Instr) (rest : List Byte), decode s.cmdBytes s.trace = .op i rest →
    step s = exec i { s with trace := rest }

/-- R87, R123 (log 3): with no input at all a step is a quiet clock cycle: `TRN` is performed if it is due, and otherwise
nothing changes. -/
def Obligations.QuietStepPerformsDueTurnaround : Prop :=
  ∀ s : State, s.started = true → s.trace = [] → s.cycles = [] →
    (s.trnEnabled = true → step s = exec .trn s)
    ∧ (s.trnEnabled = false → step s = .next { s with actions := [], outcomes := [] })

/-- R156: the order of the events of one cycle. `RST` stands alone; a byte drops a simultaneous timer event; then come the
sink and the turnaround, each by its guard at the start of the cycle and never both; a send comes last, on the state `u`
those leave: held if the lock is set there (a byte of the same cycle sets it), else performed (a `TMO` of the same cycle
that releases the lock lets it through), or refused where the ports spell no well-formed message (log 13). Stated for
cycles without a staging write. -/
def Obligations.CycleOrder : Prop :=
  ∀ (p : PortIn) (s : State), s.Inv → s.started = true → p.plwEn = false →
    (p.rst = true → clockCycle p s = exec .rst s)
    ∧ (p.rst = false → p.rxValid = true → clockCycle p s = clockCycle { p with tmrFired := false } s)
    ∧ (p.rst = false → p.sndReq = false →
        clockCycle p s = performAll
          ((if p.rxValid then [.rxb p.rxData] else if p.tmrFired then [.tmo] else [])
            ++ (if s.txEnabled && p.txReady then [.txb] else [])
            ++ (if s.trnEnabled then [.trn] else [])) s)
    ∧ ¬ (s.txEnabled = true ∧ s.trnEnabled = true)
    ∧ (p.rst = false → p.sndReq = true →
        ∃ u, clockCycle { p with sndReq := false } s = .next u
          ∧ (u.blk.txLock = true → clockCycle p s = .next { u with outcomes := u.outcomes ++ [.held] })
          ∧ (∀ m, u.blk.txLock = false → s.portMessage p = some m → m.wf s.cmdBytes = true →
              ∃ t, clockCycle p s = .next t ∧ t.actions = u.actions ++ [.dir .transmit]
                ∧ t.outcomes = u.outcomes ++ [.performed]
                ∧ exec (.snd m) u = .next { t with actions := [.dir .transmit], outcomes := [.performed] })
          ∧ (u.blk.txLock = false → (∀ m, s.portMessage p = some m → m.wf s.cmdBytes = false) →
              clockCycle p s = .refused .illFormedSend)
          ∧ (p.rxValid = true → u.blk.txLock = true)
          ∧ (p.rxValid = false → p.tmrFired = true → s.blk.timerArmed = true → s.blk.txState ≠ .sending →
              u.blk.txLock = false))

/-- R87, R193: a payload staging write lands in `txb` and nowhere else while no send is under way, and is dropped while one
is, or at address 255. Beside any other events of its cycle it acts as if it came just before them, unless the cycle also
requests a send of the byte being written (`StagingTieSendsEitherReading`). -/
def Obligations.StagingWrite : Prop :=
  ∀ (p : PortIn) (s : State),
    (s.sndBusy = true ∨ p.plwAddr = 255 → clockCycle p s = clockCycle { p with plwEn := false } s)
    ∧ (s.started = true → s.sndBusy = false → p.plwAddr ≠ 255 →
        ∃ t, clockCycle { PortIn.quiet with plwEn := true, plwAddr := p.plwAddr, plwData := p.plwData } s = .next t
          ∧ t = { s with blk := { s.blk with txb := t.blk.txb }, actions := [], outcomes := [] }
          ∧ t.byte .txb (s.headerSize + p.plwAddr.toNat) = p.plwData
          ∧ ∀ a, a ≠ s.headerSize + p.plwAddr.toNat → t.byte .txb a = s.byte .txb a)
    ∧ (s.stagingTie p = false → clockCycle p s = clockCycle { p with plwEn := false } (s.stage p))

/-- R87, R156 (log 12): a cycle that stages a byte and requests a send of it. The write lands, the other operations of the
cycle are performed, and the message of the request is one of the two readings, without or with the byte: held if the lock
is then set, else performed if it is well-formed. Which reading it is stays a free value; that the tie is counted is the
model's. -/
def Obligations.StagingTieSendsEitherReading : Prop :=
  ∀ (p : PortIn) (s : State), s.Inv → s.started = true → p.rst = false → s.stagingTie p = true →
    ∃ u r, (r = s.portMessage p ∨ r = (s.stage p).portMessage p)
      ∧ clockCycle { p with plwEn := false, sndReq := false } { s.stage p with tieCount := s.tieCount + 1 } = .next u
      ∧ (u.blk.txLock = true → clockCycle p s = .next { u with outcomes := u.outcomes ++ [.held] })
      ∧ (∀ m, u.blk.txLock = false → r = some m → m.wf s.cmdBytes = true →
          ∃ t, clockCycle p s = .next t ∧ t.txFrame = serialize s.cmdBytes m
            ∧ t.actions = u.actions ++ [.dir .transmit] ∧ t.outcomes = u.outcomes ++ [.performed]
            ∧ exec (.snd m) u = .next { t with actions := [.dir .transmit], outcomes := [.performed] })
      ∧ (u.blk.txLock = false → (∀ m, r = some m → m.wf s.cmdBytes = false) →
          clockCycle p s = .refused .illFormedSend)

/-- R86, R198 (log 11): after a cycle `snd_gnt` is high exactly when the cycle performed a requested send, and `snd_done`
exactly when it ended one. -/
def Obligations.SendPulses : Prop :=
  ∀ (p : PortIn) (s t : State) (a : Count), s.Inv → clockCycle p s = .next t →
    ((outputs a t).sndGnt = true ↔
      p.rst = false ∧ p.sndReq = true ∧ t.outcomes.getLast? = some .performed)
    ∧ ((outputs a t).sndDone = true ↔
      p.rst = false ∧ p.rxValid = false ∧ p.tmrFired = true ∧ s.blk.txState = .gap)

/-- R86, R198 (log 11): the pulses to the timer and to the Dispatcher after a cycle. `tmr_start` follows a received byte or a
turnaround, `tmr_cancel` an `RST`; `rxf_valid` follows the byte that makes the bytes received as long as their own header
declares, with `rxf_err` for a bad `target_mode` and `rxf_len` their number; `flush` follows a timer event that finds a frame
in progress, with its length in `flush_len`. No pulse is high otherwise. -/
def Obligations.TimerAndFramePulses : Prop :=
  ∀ (p : PortIn) (s t : State) (a : Count), s.Inv → clockCycle p s = .next t →
    ((outputs a t).tmrStart = true ↔ p.rst = false ∧ (p.rxValid = true ∨ s.trnEnabled = true))
    ∧ ((outputs a t).tmrCancel = true ↔ p.rst = true)
    ∧ ((outputs a t).rxfValid = true ↔ p.rst = false ∧ p.rxValid = true
        ∧ s.headerSize ≤ (s.rxFrame ++ [p.rxData]).length
        ∧ (s.rxFrame ++ [p.rxData]).length = declaredLength s.cmdBytes (s.rxFrame ++ [p.rxData]))
    ∧ ((outputs a t).rxfValid = true →
        (outputs a t).rxfErr = some (decide (3 < (byteAt (s.rxFrame ++ [p.rxData]) 0).toNat))
        ∧ (outputs a t).rxfLen = some (s.blk.rxCnt + 1) ∧ (s.blk.rxCnt + 1).toNat = s.blk.rxCnt.toNat + 1)
    ∧ ((outputs a t).flush = true ↔ p.rst = false ∧ p.rxValid = false ∧ p.tmrFired = true
        ∧ s.blk.timerArmed = true ∧ s.blk.faState ≠ .idle)
    ∧ ((outputs a t).flush = true → (outputs a t).flushLen = some s.blk.rxCnt)
    ∧ ((outputs a t).rxfValid = false → (outputs a t).rxfErr = none)
    ∧ ((outputs a t).flush = false → (outputs a t).flushLen = none)

/-- R86, R188: after the byte that completes a frame the frame can be read through `rxr_addr`, with its length in
`rxf_len`, and stays so under every operation but `RXB` and `RST`. -/
def Obligations.SurfacedFrameReadable : Prop :=
  ∀ (s t : State) (b : Byte) (F : List Byte), s.Inv → exec (.rxb b) s = .next t →
    .rxdone F ∈ t.actions ∨ .rxerr F ∈ t.actions →
    (∃ n, (∀ a, (outputs a t).rxfLen = some n) ∧ n.toNat = F.length)
    ∧ (∀ a : Count, a.toNat < F.length → (outputs a t).rxrData = some (byteAt F a.toNat))
    ∧ (∀ (i : Instr) (u : State), i ≠ .rst → (∀ b', i ≠ .rxb b') → exec i t = .next u →
        ∀ a, (outputs a u).rxfLen = (outputs a t).rxfLen ∧ (outputs a u).rxrData = (outputs a t).rxrData)

/-! ### Properties of runs -/

/-- R107: feeding the bytes of `serialize(m)` to an Idle assembler, with any `SND`, `TXB`, `TRN` and ignored `TMO` among them,
completes exactly one frame, that one, with its last byte, and returns to Idle. -/
def Obligations.IncrementalEquivalence : Prop :=
  ∀ (s : State) (m : Message) (ops : List Instr) (t : State),
    s.Inv → s.blk.faState = .idle → m.wf s.cmdBytes = true →
    .rst ∉ ops → performAll ops s = .next t → TimeoutsIgnored ops t.outcomes →
    (rxOperands ops <+: serialize s.cmdBytes m → rxOperands ops ≠ serialize s.cmdBytes m →
      completions t.actions = [])
    ∧ (rxOperands ops = serialize s.cmdBytes m →
      completions t.actions = [.rxdone (serialize s.cmdBytes m)]
        ∧ deserialize s.cmdBytes (serialize s.cmdBytes m) = .message m
        ∧ t.blk.faState = .idle ∧ t.blk.rxCnt = 0)

/-- R108: from a Quiescent state, a proper prefix of some frame, a `TMO`, then a whole frame: the prefix is flushed, and
the only completed frame is the whole one. -/
def Obligations.TimeoutRecovery : Prop :=
  ∀ (s : State) (m m' : Message) (part : List Byte), s.Quiescent → s.started = true →
    m.wf s.cmdBytes = true → m'.wf s.cmdBytes = true →
    part <+: serialize s.cmdBytes m' → part ≠ serialize s.cmdBytes m' → part ≠ [] →
    ∃ t n, performAll (part.map Instr.rxb ++ Instr.tmo :: (serialize s.cmdBytes m).map Instr.rxb) s = .next t
      ∧ n = BitVec.ofNat 9 part.length ∧ n.toNat = part.length
      ∧ t.actions = List.replicate part.length .tstart ++ .flush n
          :: (List.replicate (serialize s.cmdBytes m).length .tstart ++ [.rxdone (serialize s.cmdBytes m)])

/-- R126: one whole local send, with `LOOPBACK` false and with `LOOPBACK` true: its actions in order, and Quiescent at its
end. -/
def Obligations.WholeLocalSend : Prop :=
  ∀ (s : State) (m : Message), s.Quiescent → s.started = true → m.wf s.cmdBytes = true →
    (∃ t, performAll ((Pseudo.send m).expand s.cmdBytes s) s = .next t ∧ t.Quiescent
      ∧ t.actions = .dir .transmit
          :: ((serialize s.cmdBytes m).map Action.tx ++ [.dir .receive, .tstart, .snddone]))
    ∧ (∃ t, performAll ((Pseudo.sendlb m).expand s.cmdBytes s) s = .next t ∧ t.Quiescent
      ∧ t.actions = .dir .transmit
          :: ((serialize s.cmdBytes m).flatMap (fun b => [.tx b, .tstart])
              ++ [.rxdone (serialize s.cmdBytes m), .dir .receive, .tstart, .snddone]))

/-- R61, R127: from a performed `SND m` until its SNDDONE, whatever else happens but an `RST`, the bytes handed to the sink
are the first `tx_idx` bytes of `serialize(m)`, all of them once the line has been turned back, and every other send is
held; an `RST` leaves them a prefix. -/
def Obligations.SentBytesAreTheFrame : Prop :=
  ∀ (s t : State) (m : Message) (ops : List Instr), s.Inv → s.blk.txLock = false → m.wf s.cmdBytes = true →
    .rst ∉ ops → performAll (.snd m :: ops) s = .next t → .snddone ∉ t.actions →
    lineBytes t.actions = (serialize s.cmdBytes m).take t.blk.txIdx.toNat
    ∧ (.dir .receive ∈ t.actions → lineBytes t.actions = serialize s.cmdBytes m)
    ∧ SendsHeld ops t.outcomes.tail
    ∧ (∀ u, performAll (.snd m :: ops ++ [.rst]) s = .next u →
        lineBytes u.actions <+: serialize s.cmdBytes m)

/-- R196, bounded: once the line is silent, the bytes left, the turnaround and one `TMO` lead from any locked state that
meets the invariant to a Quiescent one. -/
def Obligations.SilentLineDrains : Prop :=
  ∀ s : State, s.Inv → s.started = true → s.blk.txLock = true →
    ∃ t, performAll s.drainOps s = .next t ∧ t.Quiescent ∧ ∀ w ∈ t.outcomes, w = .performed

/-- R195, R196: in every infinite run under F1, F2 and F3 in which the line falls silent, the lock is free again and again:
from every point on a Quiescent state is reached. -/
def Obligations.SilentLineFreesTheLock : Prop :=
  ∀ (ops : Nat → Instr) (st : Nat → State), (st 0).Inv → (st 0).started = true → IsRun ops st →
    TimerFair ops st → SinkFair ops st → TurnFair ops st → LineFallsSilent ops →
    ∀ n, ∃ m, n ≤ m ∧ (st m).Quiescent

/-- R195, R196: in every infinite run under F1 to F4 in which the line falls silent, every requested `SND` is performed and
comes to its end: to its `SNDDONE`, with no other send performed in between, unless an `RST` ends it first (R140). F4 and the
requests are those of one Host at the one request port (R121; their form is the model's, log 19). -/
def Obligations.RequestedSendsReachTheirEnd : Prop :=
  ∀ (ops : Nat → Instr) (st : Nat → State) (wants : Nat → Option Message),
    (st 0).Inv → (st 0).started = true → IsRun ops st →
    TimerFair ops st → SinkFair ops st → TurnFair ops st → HostRequests ops st wants → HostFair ops st wants →
    LineFallsSilent ops →
    ∀ n m, wants n = some m → ∃ k j, n ≤ k ∧ SendsAt ops st k m ∧ SendEndsAt ops st k j

/-- R192: one stray byte in a Quiescent state holds a send until the `TMO` that flushes it. -/
def Obligations.StrayByteCostsOneTimeout : Prop :=
  ∀ (s : State) (b : Byte) (m : Message), s.Quiescent → s.started = true → m.wf s.cmdBytes = true →
    ∃ t, performAll [.rxb b, .snd m, .tmo, .snd m] s = .next t
      ∧ t.outcomes = [.performed, .held, .performed, .performed]
      ∧ t.actions = [.tstart, .flush 1, .dir .transmit] ∧ t.txFrame = serialize s.cmdBytes m

/-! ### The timed environment and the bus -/

/-- R199: after a byte at time `t` a further byte may arrive exactly `ONE_BYTE_TIME` later and continues; nothing may occur
later than that before the `TMO`, and the `TMO` occurs at exactly that time. -/
def Obligations.ByteAtTheDeadlineIsInTime : Prop :=
  ∀ (T t : Nat) (w w' : Timed) (b : Byte), 0 < T → w.state.Inv → w.state.started = true →
    (∀ f, w.firedAt = some f → f ≤ w.now) → w.act T t (.rxb b) = some w' →
    w'.deadline = some (t + T)
    ∧ (∀ b', (w'.act T (t + T) (.rxb b')).isSome = true)
    ∧ (∀ t' i, t + T < t' → w'.act T t' i = none)
    ∧ (∀ t', (w'.act T t' .tmo).isSome = true ↔ t' = t + T)

/-- R60, R171: an operation of one node leaves the blocks of all others alone; a `TXB` it performs puts its byte at the end
of what every other node will hear, and no other operation puts anything there. -/
def Obligations.LineDeliversInOrder : Prop :=
  ∀ (bus bus' : Bus) (k : Nat) (i : Instr) (n : Node), bus[k]? = some n → bus.act k i = some bus' →
    bus'.length = bus.length
    ∧ ∀ (j : Nat) (x : Node), j ≠ k → bus[j]? = some x →
        bus'[j]? = some { x with
          heard := x.heard ++ (if i = .txb ∧ n.state.txEnabled = true then [n.state.txByte] else []) }

/-- R171, R183: on a bus of two nodes with the same `CMD_BYTES`, a frame sent by one is surfaced by the other, byte for byte,
and both end Quiescent with nothing left on the line. That the line is a reliable queue is the model's choice (log 17). -/
def Obligations.FrameCrossesTheBus : Prop :=
  ∀ (x y : State) (m : Message), x.Quiescent → y.Quiescent → x.started = true → y.started = true →
    x.cmdBytes = y.cmdBytes → m.wf x.cmdBytes = true →
    ∃ x' y' : State,
      Bus.run ((0, .snd m) :: ((serialize x.cmdBytes m).flatMap (fun b => [(0, .txb), (1, .rxb b)])
            ++ [(0, .trn), (0, .tmo), (1, .tmo)]))
          [⟨x, false, []⟩, ⟨y, false, []⟩] = some [⟨x', false, []⟩, ⟨y', false, []⟩]
        ∧ x'.Quiescent ∧ y'.Quiescent
        ∧ y'.env.surfaced = y.env.surfaced ++ [serialize x.cmdBytes m]
end

