-- ==== Sys2Proof/Laws/State.lean ====
section
/-! SUPPORT. One lemma per field of State per named update, and one per action for the collaborators. -/

namespace Sys2Proof.Machine

/-! ### State.attempt -/

@[simp] theorem State.attempt_cmdBytes (w : OutcomeWord) (s : State) : (s.attempt w).cmdBytes = s.cmdBytes := rfl
@[simp] theorem State.attempt_started (w : OutcomeWord) (s : State) : (s.attempt w).started = s.started := rfl
@[simp] theorem State.attempt_blk (w : OutcomeWord) (s : State) : (s.attempt w).blk = s.blk := rfl
@[simp] theorem State.attempt_rxfLen (w : OutcomeWord) (s : State) : (s.attempt w).rxfLen = s.rxfLen := rfl
@[simp] theorem State.attempt_env (w : OutcomeWord) (s : State) : (s.attempt w).env = s.env := rfl
@[simp] theorem State.attempt_actions (w : OutcomeWord) (s : State) : (s.attempt w).actions = [] := rfl
@[simp] theorem State.attempt_outcomes (w : OutcomeWord) (s : State) : (s.attempt w).outcomes = [w] := rfl
@[simp] theorem State.attempt_trace (w : OutcomeWord) (s : State) : (s.attempt w).trace = s.trace := rfl
@[simp] theorem State.attempt_cycles (w : OutcomeWord) (s : State) : (s.attempt w).cycles = s.cycles := rfl
@[simp] theorem State.attempt_resetGen (w : OutcomeWord) (s : State) : (s.attempt w).resetGen = s.resetGen := rfl
@[simp] theorem State.attempt_tieCount (w : OutcomeWord) (s : State) : (s.attempt w).tieCount = s.tieCount := rfl

/-! ### State.emit -/

@[simp] theorem State.emit_cmdBytes (a : Action) (s : State) : (s.emit a).cmdBytes = s.cmdBytes := rfl
@[simp] theorem State.emit_started (a : Action) (s : State) : (s.emit a).started = s.started := rfl
@[simp] theorem State.emit_blk (a : Action) (s : State) : (s.emit a).blk = s.blk := rfl
@[simp] theorem State.emit_rxfLen (a : Action) (s : State) : (s.emit a).rxfLen = s.rxfLen := rfl
@[simp] theorem State.emit_env (a : Action) (s : State) : (s.emit a).env = s.env.react a := rfl
@[simp] theorem State.emit_actions (a : Action) (s : State) : (s.emit a).actions = s.actions ++ [a] := rfl
@[simp] theorem State.emit_outcomes (a : Action) (s : State) : (s.emit a).outcomes = s.outcomes := rfl
@[simp] theorem State.emit_trace (a : Action) (s : State) : (s.emit a).trace = s.trace := rfl
@[simp] theorem State.emit_cycles (a : Action) (s : State) : (s.emit a).cycles = s.cycles := rfl
@[simp] theorem State.emit_resetGen (a : Action) (s : State) : (s.emit a).resetGen = s.resetGen := rfl
@[simp] theorem State.emit_tieCount (a : Action) (s : State) : (s.emit a).tieCount = s.tieCount := rfl

/-! ### State.raise -/

@[simp] theorem State.raise_cmdBytes (x : Condition) (s : State) : (s.raise x).cmdBytes = s.cmdBytes := rfl
@[simp] theorem State.raise_started (x : Condition) (s : State) : (s.raise x).started = s.started := rfl
@[simp] theorem State.raise_blk (x : Condition) (s : State) : (s.raise x).blk = s.blk := rfl
@[simp] theorem State.raise_rxfLen (x : Condition) (s : State) : (s.raise x).rxfLen = s.rxfLen := rfl
@[simp] theorem State.raise_env (x : Condition) (s : State) : (s.raise x).env = s.env.react x.action := rfl
@[simp] theorem State.raise_actions (x : Condition) (s : State) :
    (s.raise x).actions = s.actions ++ [x.action] := rfl
@[simp] theorem State.raise_outcomes (x : Condition) (s : State) : (s.raise x).outcomes = s.outcomes := rfl
@[simp] theorem State.raise_trace (x : Condition) (s : State) : (s.raise x).trace = s.trace := rfl
@[simp] theorem State.raise_cycles (x : Condition) (s : State) : (s.raise x).cycles = s.cycles := rfl
@[simp] theorem State.raise_resetGen (x : Condition) (s : State) : (s.raise x).resetGen = s.resetGen := rfl
@[simp] theorem State.raise_tieCount (x : Condition) (s : State) : (s.raise x).tieCount = s.tieCount := rfl

/-! ### State.append -/

@[simp] theorem State.append_cmdBytes (b : Byte) (s : State) : (s.append b).cmdBytes = s.cmdBytes := rfl
@[simp] theorem State.append_started (b : Byte) (s : State) : (s.append b).started = s.started := rfl
@[simp] theorem State.append_blk (b : Byte) (s : State) :
    (s.append b).blk = { s.blk with buf := Mem.write s.blk.rxCnt.toNat b s.blk.buf, rxCnt := s.blk.rxCnt + 1 } := rfl
@[simp] theorem State.append_rxfLen (b : Byte) (s : State) : (s.append b).rxfLen = none := rfl
@[simp] theorem State.append_env (b : Byte) (s : State) : (s.append b).env = s.env := rfl
@[simp] theorem State.append_actions (b : Byte) (s : State) : (s.append b).actions = s.actions := rfl
@[simp] theorem State.append_outcomes (b : Byte) (s : State) : (s.append b).outcomes = s.outcomes := rfl
@[simp] theorem State.append_trace (b : Byte) (s : State) : (s.append b).trace = s.trace := rfl
@[simp] theorem State.append_cycles (b : Byte) (s : State) : (s.append b).cycles = s.cycles := rfl
@[simp] theorem State.append_resetGen (b : Byte) (s : State) : (s.append b).resetGen = s.resetGen := rfl
@[simp] theorem State.append_tieCount (b : Byte) (s : State) : (s.append b).tieCount = s.tieCount := rfl

/-! ### State.setFaState -/

@[simp] theorem State.setFaState_cmdBytes (v : FaState) (s : State) : (s.setFaState v).cmdBytes = s.cmdBytes := rfl
@[simp] theorem State.setFaState_started (v : FaState) (s : State) : (s.setFaState v).started = s.started := rfl
@[simp] theorem State.setFaState_blk (v : FaState) (s : State) :
    (s.setFaState v).blk = { s.blk with faState := v } := rfl
@[simp] theorem State.setFaState_rxfLen (v : FaState) (s : State) : (s.setFaState v).rxfLen = s.rxfLen := rfl
@[simp] theorem State.setFaState_env (v : FaState) (s : State) : (s.setFaState v).env = s.env := rfl
@[simp] theorem State.setFaState_actions (v : FaState) (s : State) : (s.setFaState v).actions = s.actions := rfl
@[simp] theorem State.setFaState_outcomes (v : FaState) (s : State) : (s.setFaState v).outcomes = s.outcomes := rfl
@[simp] theorem State.setFaState_trace (v : FaState) (s : State) : (s.setFaState v).trace = s.trace := rfl
@[simp] theorem State.setFaState_cycles (v : FaState) (s : State) : (s.setFaState v).cycles = s.cycles := rfl
@[simp] theorem State.setFaState_resetGen (v : FaState) (s : State) : (s.setFaState v).resetGen = s.resetGen := rfl
@[simp] theorem State.setFaState_tieCount (v : FaState) (s : State) : (s.setFaState v).tieCount = s.tieCount := rfl

/-! ### State.setPayLen -/

@[simp] theorem State.setPayLen_cmdBytes (v : Byte) (s : State) : (s.setPayLen v).cmdBytes = s.cmdBytes := rfl
@[simp] theorem State.setPayLen_started (v : Byte) (s : State) : (s.setPayLen v).started = s.started := rfl
@[simp] theorem State.setPayLen_blk (v : Byte) (s : State) : (s.setPayLen v).blk = { s.blk with payLen := v } := rfl
@[simp] theorem State.setPayLen_rxfLen (v : Byte) (s : State) : (s.setPayLen v).rxfLen = s.rxfLen := rfl
@[simp] theorem State.setPayLen_env (v : Byte) (s : State) : (s.setPayLen v).env = s.env := rfl
@[simp] theorem State.setPayLen_actions (v : Byte) (s : State) : (s.setPayLen v).actions = s.actions := rfl
@[simp] theorem State.setPayLen_outcomes (v : Byte) (s : State) : (s.setPayLen v).outcomes = s.outcomes := rfl
@[simp] theorem State.setPayLen_trace (v : Byte) (s : State) : (s.setPayLen v).trace = s.trace := rfl
@[simp] theorem State.setPayLen_cycles (v : Byte) (s : State) : (s.setPayLen v).cycles = s.cycles := rfl
@[simp] theorem State.setPayLen_resetGen (v : Byte) (s : State) : (s.setPayLen v).resetGen = s.resetGen := rfl
@[simp] theorem State.setPayLen_tieCount (v : Byte) (s : State) : (s.setPayLen v).tieCount = s.tieCount := rfl

/-! ### State.assemblerIdle -/

@[simp] theorem State.assemblerIdle_cmdBytes (s : State) : s.assemblerIdle.cmdBytes = s.cmdBytes := rfl
@[simp] theorem State.assemblerIdle_started (s : State) : s.assemblerIdle.started = s.started := rfl
@[simp] theorem State.assemblerIdle_blk (s : State) :
    s.assemblerIdle.blk = { s.blk with faState := .idle, rxCnt := 0, payLen := 0 } := rfl
@[simp] theorem State.assemblerIdle_rxfLen (s : State) : s.assemblerIdle.rxfLen = s.rxfLen := rfl
@[simp] theorem State.assemblerIdle_env (s : State) : s.assemblerIdle.env = s.env := rfl
@[simp] theorem State.assemblerIdle_actions (s : State) : s.assemblerIdle.actions = s.actions := rfl
@[simp] theorem State.assemblerIdle_outcomes (s : State) : s.assemblerIdle.outcomes = s.outcomes := rfl
@[simp] theorem State.assemblerIdle_trace (s : State) : s.assemblerIdle.trace = s.trace := rfl
@[simp] theorem State.assemblerIdle_cycles (s : State) : s.assemblerIdle.cycles = s.cycles := rfl
@[simp] theorem State.assemblerIdle_resetGen (s : State) : s.assemblerIdle.resetGen = s.resetGen := rfl
@[simp] theorem State.assemblerIdle_tieCount (s : State) : s.assemblerIdle.tieCount = s.tieCount := rfl

/-! ### State.setTxState -/

@[simp] theorem State.setTxState_cmdBytes (v : TxState) (s : State) : (s.setTxState v).cmdBytes = s.cmdBytes := rfl
@[simp] theorem State.setTxState_started (v : TxState) (s : State) : (s.setTxState v).started = s.started := rfl
@[simp] theorem State.setTxState_blk (v : TxState) (s : State) :
    (s.setTxState v).blk = { s.blk with txState := v } := rfl
@[simp] theorem State.setTxState_rxfLen (v : TxState) (s : State) : (s.setTxState v).rxfLen = s.rxfLen := rfl
@[simp] theorem State.setTxState_env (v : TxState) (s : State) : (s.setTxState v).env = s.env := rfl
@[simp] theorem State.setTxState_actions (v : TxState) (s : State) : (s.setTxState v).actions = s.actions := rfl
@[simp] theorem State.setTxState_outcomes (v : TxState) (s : State) : (s.setTxState v).outcomes = s.outcomes := rfl
@[simp] theorem State.setTxState_trace (v : TxState) (s : State) : (s.setTxState v).trace = s.trace := rfl
@[simp] theorem State.setTxState_cycles (v : TxState) (s : State) : (s.setTxState v).cycles = s.cycles := rfl
@[simp] theorem State.setTxState_resetGen (v : TxState) (s : State) : (s.setTxState v).resetGen = s.resetGen := rfl
@[simp] theorem State.setTxState_tieCount (v : TxState) (s : State) : (s.setTxState v).tieCount = s.tieCount := rfl

/-! ### State.arbiterIdle -/

@[simp] theorem State.arbiterIdle_cmdBytes (s : State) : s.arbiterIdle.cmdBytes = s.cmdBytes := rfl
@[simp] theorem State.arbiterIdle_started (s : State) : s.arbiterIdle.started = s.started := rfl
@[simp] theorem State.arbiterIdle_blk (s : State) :
    s.arbiterIdle.blk = { s.blk with txState := .txIdle, txLen := 0, txIdx := 0 } := rfl
@[simp] theorem State.arbiterIdle_rxfLen (s : State) : s.arbiterIdle.rxfLen = s.rxfLen := rfl
@[simp] theorem State.arbiterIdle_env (s : State) : s.arbiterIdle.env = s.env := rfl
@[simp] theorem State.arbiterIdle_actions (s : State) : s.arbiterIdle.actions = s.actions := rfl
@[simp] theorem State.arbiterIdle_outcomes (s : State) : s.arbiterIdle.outcomes = s.outcomes := rfl
@[simp] theorem State.arbiterIdle_trace (s : State) : s.arbiterIdle.trace = s.trace := rfl
@[simp] theorem State.arbiterIdle_cycles (s : State) : s.arbiterIdle.cycles = s.cycles := rfl
@[simp] theorem State.arbiterIdle_resetGen (s : State) : s.arbiterIdle.resetGen = s.resetGen := rfl
@[simp] theorem State.arbiterIdle_tieCount (s : State) : s.arbiterIdle.tieCount = s.tieCount := rfl

/-! ### State.latch -/

@[simp] theorem State.latch_cmdBytes (L : List Byte) (s : State) : (s.latch L).cmdBytes = s.cmdBytes := rfl
@[simp] theorem State.latch_started (L : List Byte) (s : State) : (s.latch L).started = s.started := rfl
@[simp] theorem State.latch_blk (L : List Byte) (s : State) :
    (s.latch L).blk = { s.blk with txb := Mem.writeAll 0 L s.blk.txb, txLen := BitVec.ofNat 9 L.length, txIdx := 0 } := rfl
@[simp] theorem State.latch_rxfLen (L : List Byte) (s : State) : (s.latch L).rxfLen = s.rxfLen := rfl
@[simp] theorem State.latch_env (L : List Byte) (s : State) : (s.latch L).env = s.env := rfl
@[simp] theorem State.latch_actions (L : List Byte) (s : State) : (s.latch L).actions = s.actions := rfl
@[simp] theorem State.latch_outcomes (L : List Byte) (s : State) : (s.latch L).outcomes = s.outcomes := rfl
@[simp] theorem State.latch_trace (L : List Byte) (s : State) : (s.latch L).trace = s.trace := rfl
@[simp] theorem State.latch_cycles (L : List Byte) (s : State) : (s.latch L).cycles = s.cycles := rfl
@[simp] theorem State.latch_resetGen (L : List Byte) (s : State) : (s.latch L).resetGen = s.resetGen := rfl
@[simp] theorem State.latch_tieCount (L : List Byte) (s : State) : (s.latch L).tieCount = s.tieCount := rfl

/-! ### State.advanceTx -/

@[simp] theorem State.advanceTx_cmdBytes (s : State) : s.advanceTx.cmdBytes = s.cmdBytes := rfl
@[simp] theorem State.advanceTx_started (s : State) : s.advanceTx.started = s.started := rfl
@[simp] theorem State.advanceTx_blk (s : State) : s.advanceTx.blk = { s.blk with txIdx := s.blk.txIdx + 1 } := rfl
@[simp] theorem State.advanceTx_rxfLen (s : State) : s.advanceTx.rxfLen = s.rxfLen := rfl
@[simp] theorem State.advanceTx_env (s : State) : s.advanceTx.env = s.env := rfl
@[simp] theorem State.advanceTx_actions (s : State) : s.advanceTx.actions = s.actions := rfl
@[simp] theorem State.advanceTx_outcomes (s : State) : s.advanceTx.outcomes = s.outcomes := rfl
@[simp] theorem State.advanceTx_trace (s : State) : s.advanceTx.trace = s.trace := rfl
@[simp] theorem State.advanceTx_cycles (s : State) : s.advanceTx.cycles = s.cycles := rfl
@[simp] theorem State.advanceTx_resetGen (s : State) : s.advanceTx.resetGen = s.resetGen := rfl
@[simp] theorem State.advanceTx_tieCount (s : State) : s.advanceTx.tieCount = s.tieCount := rfl

/-! ### State.setTxLock -/

@[simp] theorem State.setTxLock_cmdBytes (v : Bool) (s : State) : (s.setTxLock v).cmdBytes = s.cmdBytes := rfl
@[simp] theorem State.setTxLock_started (v : Bool) (s : State) : (s.setTxLock v).started = s.started := rfl
@[simp] theorem State.setTxLock_blk (v : Bool) (s : State) : (s.setTxLock v).blk = { s.blk with txLock := v } := rfl
@[simp] theorem State.setTxLock_rxfLen (v : Bool) (s : State) : (s.setTxLock v).rxfLen = s.rxfLen := rfl
@[simp] theorem State.setTxLock_env (v : Bool) (s : State) : (s.setTxLock v).env = s.env := rfl
@[simp] theorem State.setTxLock_actions (v : Bool) (s : State) : (s.setTxLock v).actions = s.actions := rfl
@[simp] theorem State.setTxLock_outcomes (v : Bool) (s : State) : (s.setTxLock v).outcomes = s.outcomes := rfl
@[simp] theorem State.setTxLock_trace (v : Bool) (s : State) : (s.setTxLock v).trace = s.trace := rfl
@[simp] theorem State.setTxLock_cycles (v : Bool) (s : State) : (s.setTxLock v).cycles = s.cycles := rfl
@[simp] theorem State.setTxLock_resetGen (v : Bool) (s : State) : (s.setTxLock v).resetGen = s.resetGen := rfl
@[simp] theorem State.setTxLock_tieCount (v : Bool) (s : State) : (s.setTxLock v).tieCount = s.tieCount := rfl

/-! ### State.setTimerArmed -/

@[simp] theorem State.setTimerArmed_cmdBytes (v : Bool) (s : State) :
    (s.setTimerArmed v).cmdBytes = s.cmdBytes := rfl
@[simp] theorem State.setTimerArmed_started (v : Bool) (s : State) : (s.setTimerArmed v).started = s.started := rfl
@[simp] theorem State.setTimerArmed_blk (v : Bool) (s : State) :
    (s.setTimerArmed v).blk = { s.blk with timerArmed := v } := rfl
@[simp] theorem State.setTimerArmed_rxfLen (v : Bool) (s : State) : (s.setTimerArmed v).rxfLen = s.rxfLen := rfl
@[simp] theorem State.setTimerArmed_env (v : Bool) (s : State) : (s.setTimerArmed v).env = s.env := rfl
@[simp] theorem State.setTimerArmed_actions (v : Bool) (s : State) : (s.setTimerArmed v).actions = s.actions := rfl
@[simp] theorem State.setTimerArmed_outcomes (v : Bool) (s : State) :
    (s.setTimerArmed v).outcomes = s.outcomes := rfl
@[simp] theorem State.setTimerArmed_trace (v : Bool) (s : State) : (s.setTimerArmed v).trace = s.trace := rfl
@[simp] theorem State.setTimerArmed_cycles (v : Bool) (s : State) : (s.setTimerArmed v).cycles = s.cycles := rfl
@[simp] theorem State.setTimerArmed_resetGen (v : Bool) (s : State) :
    (s.setTimerArmed v).resetGen = s.resetGen := rfl
@[simp] theorem State.setTimerArmed_tieCount (v : Bool) (s : State) :
    (s.setTimerArmed v).tieCount = s.tieCount := rfl

/-! ### State.switchLine -/

@[simp] theorem State.switchLine_cmdBytes (d : Dir) (s : State) : (s.switchLine d).cmdBytes = s.cmdBytes := rfl
@[simp] theorem State.switchLine_started (d : Dir) (s : State) : (s.switchLine d).started = s.started := rfl
@[simp] theorem State.switchLine_blk (d : Dir) (s : State) : (s.switchLine d).blk = { s.blk with dir := d } := rfl
@[simp] theorem State.switchLine_rxfLen (d : Dir) (s : State) : (s.switchLine d).rxfLen = s.rxfLen := rfl
@[simp] theorem State.switchLine_env (d : Dir) (s : State) : (s.switchLine d).env = s.env.react (.dir d) := rfl
@[simp] theorem State.switchLine_actions (d : Dir) (s : State) :
    (s.switchLine d).actions = s.actions ++ [.dir d] := rfl
@[simp] theorem State.switchLine_outcomes (d : Dir) (s : State) : (s.switchLine d).outcomes = s.outcomes := rfl
@[simp] theorem State.switchLine_trace (d : Dir) (s : State) : (s.switchLine d).trace = s.trace := rfl
@[simp] theorem State.switchLine_cycles (d : Dir) (s : State) : (s.switchLine d).cycles = s.cycles := rfl
@[simp] theorem State.switchLine_resetGen (d : Dir) (s : State) : (s.switchLine d).resetGen = s.resetGen := rfl
@[simp] theorem State.switchLine_tieCount (d : Dir) (s : State) : (s.switchLine d).tieCount = s.tieCount := rfl

/-! ### State.startTimer -/

@[simp] theorem State.startTimer_cmdBytes (s : State) : s.startTimer.cmdBytes = s.cmdBytes := rfl
@[simp] theorem State.startTimer_started (s : State) : s.startTimer.started = s.started := rfl
@[simp] theorem State.startTimer_blk (s : State) : s.startTimer.blk = { s.blk with timerArmed := true } := rfl
@[simp] theorem State.startTimer_rxfLen (s : State) : s.startTimer.rxfLen = s.rxfLen := rfl
@[simp] theorem State.startTimer_env (s : State) : s.startTimer.env = s.env.react .tstart := rfl
@[simp] theorem State.startTimer_actions (s : State) : s.startTimer.actions = s.actions ++ [.tstart] := rfl
@[simp] theorem State.startTimer_outcomes (s : State) : s.startTimer.outcomes = s.outcomes := rfl
@[simp] theorem State.startTimer_trace (s : State) : s.startTimer.trace = s.trace := rfl
@[simp] theorem State.startTimer_cycles (s : State) : s.startTimer.cycles = s.cycles := rfl
@[simp] theorem State.startTimer_resetGen (s : State) : s.startTimer.resetGen = s.resetGen := rfl
@[simp] theorem State.startTimer_tieCount (s : State) : s.startTimer.tieCount = s.tieCount := rfl

/-! ### State.timerFired -/

@[simp] theorem State.timerFired_cmdBytes (s : State) : s.timerFired.cmdBytes = s.cmdBytes := rfl
@[simp] theorem State.timerFired_started (s : State) : s.timerFired.started = s.started := rfl
@[simp] theorem State.timerFired_blk (s : State) : s.timerFired.blk = { s.blk with timerArmed := false } := rfl
@[simp] theorem State.timerFired_rxfLen (s : State) : s.timerFired.rxfLen = s.rxfLen := rfl
@[simp] theorem State.timerFired_env (s : State) : s.timerFired.env = { s.env with timerRunning := false } := rfl
@[simp] theorem State.timerFired_actions (s : State) : s.timerFired.actions = s.actions := rfl
@[simp] theorem State.timerFired_outcomes (s : State) : s.timerFired.outcomes = s.outcomes := rfl
@[simp] theorem State.timerFired_trace (s : State) : s.timerFired.trace = s.trace := rfl
@[simp] theorem State.timerFired_cycles (s : State) : s.timerFired.cycles = s.cycles := rfl
@[simp] theorem State.timerFired_resetGen (s : State) : s.timerFired.resetGen = s.resetGen := rfl
@[simp] theorem State.timerFired_tieCount (s : State) : s.timerFired.tieCount = s.tieCount := rfl

/-! ### State.resetBlock -/

@[simp] theorem State.resetBlock_cmdBytes (s : State) : s.resetBlock.cmdBytes = s.cmdBytes := rfl
@[simp] theorem State.resetBlock_started (s : State) : s.resetBlock.started = true := rfl
@[simp] theorem State.resetBlock_blk (s : State) : s.resetBlock.blk = Block.reset := rfl
@[simp] theorem State.resetBlock_rxfLen (s : State) : s.resetBlock.rxfLen = s.rxfLen := rfl
@[simp] theorem State.resetBlock_env (s : State) : s.resetBlock.env = s.env := rfl
@[simp] theorem State.resetBlock_actions (s : State) : s.resetBlock.actions = s.actions := rfl
@[simp] theorem State.resetBlock_outcomes (s : State) : s.resetBlock.outcomes = s.outcomes := rfl
@[simp] theorem State.resetBlock_trace (s : State) : s.resetBlock.trace = s.trace := rfl
@[simp] theorem State.resetBlock_cycles (s : State) : s.resetBlock.cycles = s.cycles := rfl
@[simp] theorem State.resetBlock_resetGen (s : State) : s.resetBlock.resetGen = s.resetGen + 1 := rfl
@[simp] theorem State.resetBlock_tieCount (s : State) : s.resetBlock.tieCount = s.tieCount := rfl

/-! ### State.reportsAfter -/

@[simp] theorem State.reportsAfter_cmdBytes (t u : State) : (t.reportsAfter u).cmdBytes = u.cmdBytes := rfl
@[simp] theorem State.reportsAfter_started (t u : State) : (t.reportsAfter u).started = u.started := rfl
@[simp] theorem State.reportsAfter_blk (t u : State) : (t.reportsAfter u).blk = u.blk := rfl
@[simp] theorem State.reportsAfter_rxfLen (t u : State) : (t.reportsAfter u).rxfLen = u.rxfLen := rfl
@[simp] theorem State.reportsAfter_env (t u : State) : (t.reportsAfter u).env = u.env := rfl
@[simp] theorem State.reportsAfter_actions (t u : State) : (t.reportsAfter u).actions = t.actions ++ u.actions := rfl
@[simp] theorem State.reportsAfter_outcomes (t u : State) :
    (t.reportsAfter u).outcomes = t.outcomes ++ u.outcomes := rfl
@[simp] theorem State.reportsAfter_trace (t u : State) : (t.reportsAfter u).trace = u.trace := rfl
@[simp] theorem State.reportsAfter_cycles (t u : State) : (t.reportsAfter u).cycles = u.cycles := rfl
@[simp] theorem State.reportsAfter_resetGen (t u : State) : (t.reportsAfter u).resetGen = u.resetGen := rfl
@[simp] theorem State.reportsAfter_tieCount (t u : State) : (t.reportsAfter u).tieCount = u.tieCount := rfl

/-! ### Env.react -/

@[simp] theorem Env.react_tstart (e : Env) : e.react .tstart = { e with timerRunning := true } := rfl
@[simp] theorem Env.react_tcancel (e : Env) : e.react .tcancel = { e with timerRunning := false } := rfl
@[simp] theorem Env.react_transmit (e : Env) : e.react (.dir .transmit) = { e with driver := .transmit, sent := [] } := rfl
@[simp] theorem Env.react_receive (e : Env) : e.react (.dir .receive) = { e with driver := .receive } := rfl
@[simp] theorem Env.react_tx (b : Byte) (e : Env) : e.react (.tx b) = { e with sent := e.sent ++ [b] } := rfl
@[simp] theorem Env.react_rxdone (F : List Byte) (e : Env) : e.react (.rxdone F) = { e with surfaced := e.surfaced ++ [F] } := rfl
@[simp] theorem Env.react_rxerr (F : List Byte) (e : Env) : e.react (.rxerr F) = e := rfl
@[simp] theorem Env.react_flush (n : Count) (e : Env) : e.react (.flush n) = e := rfl
@[simp] theorem Env.react_snddone (e : Env) : e.react .snddone = e := rfl

end Sys2Proof.Machine
end

