-- ==== Sys2Proof/Laws/Buffers.lean ====
section
/-! SUPPORT. The buffers: a byte written is the byte read, other bytes stay, and every write keeps the canonical form. -/

namespace Sys2Proof.Machine

/-! ### Reading after writing -/

theorem Mem.find_write_same (a : Nat) (b : Byte) (m : Mem) : Mem.find a (Mem.write a b m) = some b := by
  induction m with
  | nil => simp [Mem.write, Mem.find]
  | cons cell rest ih =>
    simp only [Mem.write]
    split
    · simp [Mem.find]
    · split
      · simp [Mem.find]
      · have : cell.1 ≠ a := fun h => by simp_all
        simpa [Mem.find, this] using ih

theorem Mem.find_write_other {a x : Nat} (b : Byte) (m : Mem) (h : x ≠ a) :
    Mem.find x (Mem.write a b m) = Mem.find x m := by
  induction m with
  | nil => simp [Mem.write, Mem.find, h.symm]
  | cons cell rest ih =>
    simp only [Mem.write]
    split
    · simp [Mem.find, h.symm]
    · split
      · next h' => subst h'; simp [Mem.find, h.symm]
      · by_cases hc : cell.1 = x <;> simp [Mem.find, hc, ih]

theorem Mem.find_writeAll_outside {a x : Nat} (L : List Byte) (m : Mem) (h : x < a ∨ a + L.length ≤ x) :
    Mem.find x (Mem.writeAll a L m) = Mem.find x m := by
  induction L generalizing a m with
  | nil => rfl
  | cons b L ih =>
    simp only [List.length_cons] at h
    rw [Mem.writeAll, ih _ (by omega), Mem.find_write_other _ _ (by omega)]

theorem Mem.find_writeAll_inside {a : Nat} (L : List Byte) (m : Mem) {k : Nat} (h : k < L.length) :
    Mem.find (a + k) (Mem.writeAll a L m) = some L[k] := by
  induction L generalizing a m k with
  | nil => simp at h
  | cons b L ih =>
    rw [Mem.writeAll]
    cases k with
    | zero => rw [Mem.find_writeAll_outside _ _ (by omega)]; simp [Mem.find_write_same]
    | succ k =>
      have hk : k < L.length := by simpa using h
      simpa [Nat.add_assoc, Nat.add_comm 1 k] using ih (a := a + 1) (Mem.write a b m) hk

/-! ### The canonical form -/

theorem Mem.above_write {x a : Nat} {b : Byte} {m : Mem} (h : Mem.above x m = true) (ha : x < a) :
    Mem.above x (Mem.write a b m) = true := by
  induction m with
  | nil => simp [Mem.write, Mem.above, ha]
  | cons cell rest ih =>
    simp only [Mem.above, List.all_cons, Bool.and_eq_true, decide_eq_true_eq] at h ih ⊢
    simp only [Mem.write]
    split
    · simp [ha, h]
    · split
      · simp [ha, h]
      · simpa [h.1] using ih h.2

theorem Mem.above_trans {x y : Nat} {m : Mem} (h : Mem.above y m = true) (hxy : x ≤ y) :
    Mem.above x m = true := by
  simp only [Mem.above, List.all_eq_true, decide_eq_true_eq] at h ⊢
  intro c hc
  have := h c hc
  omega

/-- A write keeps the canonical form. -/
theorem Mem.wf_write {a : Nat} {b : Byte} {m : Mem} (h : Mem.wf m = true) : Mem.wf (Mem.write a b m) = true := by
  induction m with
  | nil => simp [Mem.write, Mem.wf, Mem.above]
  | cons cell rest ih =>
    simp only [Mem.wf, Bool.and_eq_true] at h
    simp only [Mem.write]
    split
    · next hlt =>
      have := Mem.above_trans h.1 (Nat.le_of_lt hlt)
      simp only [Mem.above] at this h
      simp [Mem.wf, Mem.above, hlt, this, h]
    · split
      · next heq => subst heq; simp [Mem.wf, h]
      · next hlt hne =>
        have : cell.1 < a := by omega
        simp [Mem.wf, ih h.2, Mem.above_write h.1 this]

theorem Mem.wf_writeAll {a : Nat} {L : List Byte} {m : Mem} (h : Mem.wf m = true) :
    Mem.wf (Mem.writeAll a L m) = true := by
  induction L generalizing a m with
  | nil => exact h
  | cons b L ih => exact ih (Mem.wf_write h)

theorem Mem.below_write {n a : Nat} {b : Byte} {m : Mem} (h : Mem.below n m = true) (ha : a < n) :
    Mem.below n (Mem.write a b m) = true := by
  induction m with
  | nil => simp [Mem.write, Mem.below, ha]
  | cons cell rest ih =>
    simp only [Mem.below, List.all_cons, Bool.and_eq_true, decide_eq_true_eq] at h ih ⊢
    simp only [Mem.write]
    split
    · simp [ha, h]
    · split
      · simp [ha, h]
      · simpa [h.1] using ih h.2

theorem Mem.below_writeAll {n a : Nat} {L : List Byte} {m : Mem} (h : Mem.below n m = true)
    (ha : a + L.length ≤ n) : Mem.below n (Mem.writeAll a L m) = true := by
  induction L generalizing a m with
  | nil => exact h
  | cons b L ih =>
    simp only [List.length_cons] at ha
    exact ih (Mem.below_write h (by omega)) (by omega)

/-! ### Byte lists read from a buffer -/

@[simp] theorem State.bytes_length (s : State) (w : Buffer) (a n : Nat) : (s.bytes w a n).length = n := by
  simp [State.bytes]

@[simp] theorem State.bytes_zero (s : State) (w : Buffer) (a : Nat) : s.bytes w a 0 = [] := rfl

/-- One more byte is appended at the end. -/
theorem State.bytes_succ (s : State) (w : Buffer) (a n : Nat) :
    s.bytes w a (n + 1) = s.bytes w a n ++ [s.byte w (a + n)] := by
  simp [State.bytes, List.range'_concat]

theorem State.bytes_getElem (s : State) (w : Buffer) (a n k : Nat) (h : k < (s.bytes w a n).length) :
    (s.bytes w a n)[k] = s.byte w (a + k) := by
  simp [State.bytes]

/-- Two states whose bytes agree in a range read the same list there. -/
theorem State.bytes_congr {s t : State} {w : Buffer} {a n : Nat}
    (h : ∀ x, a ≤ x → x < a + n → s.byte w x = t.byte w x) : s.bytes w a n = t.bytes w a n := by
  simp only [State.bytes, List.map_inj_left, List.mem_range'_1]
  exact fun x hx => h x hx.1 hx.2

/-- A byte of a buffer depends on that buffer and on the generation alone. -/
theorem State.byte_congr {s t : State} {w : Buffer} (hm : s.blk.mem w = t.blk.mem w) (hg : s.resetGen = t.resetGen)
    (a : Nat) : s.byte w a = t.byte w a := by
  simp only [State.byte, hm, hg]

/-! ### What the two writing operations do to the bytes -/

theorem State.append_byte_new (b : Byte) (s : State) : (s.append b).byte .buf s.blk.rxCnt.toNat = b := by
  simp [State.byte, Block.mem, Mem.find_write_same]

theorem State.append_byte_other (b : Byte) (s : State) {a : Nat} (h : a ≠ s.blk.rxCnt.toNat) :
    (s.append b).byte .buf a = s.byte .buf a := by
  simp [State.byte, Block.mem, Mem.find_write_other _ _ h]

theorem State.append_txb (b : Byte) (s : State) (a : Nat) : (s.append b).byte .txb a = s.byte .txb a := rfl

theorem State.latch_buf (L : List Byte) (s : State) (a : Nat) : (s.latch L).byte .buf a = s.byte .buf a := rfl

theorem State.latch_byte_inside (L : List Byte) (s : State) {k : Nat} (h : k < L.length) :
    (s.latch L).byte .txb k = L[k] := by
  have := Mem.find_writeAll_inside (a := 0) L s.blk.txb h
  rw [Nat.zero_add] at this
  simp [State.byte, Block.mem, this]

theorem State.latch_byte_outside (L : List Byte) (s : State) {a : Nat} (h : L.length ≤ a) :
    (s.latch L).byte .txb a = s.byte .txb a := by
  have := Mem.find_writeAll_outside (a := 0) (x := a) L s.blk.txb (by omega)
  simp [State.byte, Block.mem, this]

/-- The latched frame reads back as it was given (R121). -/
theorem State.latch_bytes (L : List Byte) (s : State) : (s.latch L).bytes .txb 0 L.length = L := by
  refine List.ext_getElem (by simp) fun k h₁ h₂ => ?_
  rw [State.bytes_getElem, Nat.zero_add, State.latch_byte_inside]

end Sys2Proof.Machine
end

