-- ==== Sys2Proof/Laws/Encoding.lean ====
section
/-! SUPPORT. The encodings: splitting and joining 16-bit fields, the lengths of header and frame, the wire modes, and the
operation table. -/

namespace Sys2Proof

/-! ### 16-bit fields (R9) -/

@[simp] theorem le16_lo8_hi8 (v : Half) : le16 (lo8 v) (hi8 v) = v := by
  apply BitVec.eq_of_toNat_eq
  simp [le16, lo8, hi8, Nat.shiftRight_eq_div_pow]
  omega

@[simp] theorem lo8_le16 (lo hi : Byte) : lo8 (le16 lo hi) = lo := by
  apply BitVec.eq_of_toNat_eq
  simp [le16, lo8]
  omega

@[simp] theorem hi8_le16 (lo hi : Byte) : hi8 (le16 lo hi) = hi := by
  apply BitVec.eq_of_toNat_eq
  simp [le16, hi8, Nat.shiftRight_eq_div_pow]
  omega

@[simp] theorem lo8_setWidth (b : Byte) : lo8 (b.setWidth 16) = b := by
  apply BitVec.eq_of_toNat_eq
  have := b.isLt
  simp [lo8]
  omega

/-- A one-byte value is its own low byte. -/
theorem setWidth_lo8 {v : Half} (h : v.toNat < 256) : (lo8 v).setWidth 16 = v := by
  apply BitVec.eq_of_toNat_eq
  simp [lo8]
  omega

/-! ### Sizes (R7) -/

@[simp] theorem CmdBytes.headerSize_one : CmdBytes.one.headerSize = 7 := rfl
@[simp] theorem CmdBytes.headerSize_two : CmdBytes.two.headerSize = 8 := rfl

theorem CmdBytes.headerSize_bounds (c : CmdBytes) : 7 ≤ c.headerSize ∧ c.headerSize ≤ 8 := by
  cases c <;> decide

theorem CmdBytes.bufSize_eq (c : CmdBytes) : c.bufSize = c.headerSize + 255 := rfl

/-! ### Modes (R71) -/

@[simp] theorem Mode.ofWire_code_of_onWire {m : Mode} (h : m.onWire = true) : Mode.ofWire m.code = some m := by
  cases m <;> first | rfl | simp [Mode.onWire] at h

/-- Exactly the bytes above 03 are no wire tag (R71, R75). -/
theorem Mode.ofWire_eq_none {b : Byte} : Mode.ofWire b = none ↔ 3 < b.toNat := by
  revert b; decide

theorem Mode.onWire_of_ofWire {b : Byte} {m : Mode} (h : Mode.ofWire b = some m) :
    m.onWire = true ∧ m.code = b := by
  have hb : ∀ b : Byte, ∀ m ∈ [Mode.broadcast, .byId, .byType, .byGroup, .sniffer],
      Mode.ofWire b = some m → m.onWire = true ∧ m.code = b := by decide
  exact hb b m (by cases m <;> simp) h

/-- The code of a wire mode is at most 03 (R71). -/
theorem Mode.code_le_of_onWire {m : Mode} (h : m.onWire = true) : m.code.toNat ≤ 3 := by
  cases m <;> first | decide | simp [Mode.onWire] at h

/-! ### Frames (R70, R74) -/

@[simp] theorem headerBytes_length (c : CmdBytes) (m : Message) : (headerBytes c m).length = c.headerSize := by
  cases c <;> rfl

@[simp] theorem serialize_length (c : CmdBytes) (m : Message) :
    (serialize c m).length = c.headerSize + m.payload.length := by
  simp [serialize]

/-- `payload_size` is the last byte of the header (R55). -/
theorem byteAt_payloadSize (c : CmdBytes) (m : Message) :
    byteAt (serialize c m) (c.headerSize - 1) = BitVec.ofNat 8 m.payload.length := by
  cases c <;> rfl

@[simp] theorem byteAt_serialize_zero (c : CmdBytes) (m : Message) : byteAt (serialize c m) 0 = m.mode.code := by
  cases c <;> rfl

theorem byteAt_eq_getElem {F : List Byte} {i : Nat} (h : i < F.length) : byteAt F i = F[i] := by
  simp [byteAt, h]

theorem byteAt_append_left {F G : List Byte} {i : Nat} (h : i < F.length) : byteAt (F ++ G) i = byteAt F i := by
  simp [byteAt, List.getElem?_append_left h]

/-- The parts of well-formedness (R73). -/
theorem Message.wf_iff {c : CmdBytes} {m : Message} :
    m.wf c = true ↔ m.mode.onWire = true ∧ m.payload.length ≤ 255 ∧ m.command.toNat < 2 ^ (8 * c.count) := by
  simp only [Message.wf, Message.commandFits, Bool.and_eq_true, decide_eq_true_eq, and_assoc]
  rfl

/-- The frame of a well-formed message declares its own length (R77). -/
theorem declaredLength_serialize {c : CmdBytes} {m : Message} (h : m.payload.length ≤ 255) (rest : List Byte) :
    declaredLength c (serialize c m ++ rest) = (serialize c m).length := by
  have hH := c.headerSize_bounds
  rw [declaredLength, byteAt_append_left (by simp; omega), byteAt_payloadSize]
  simp
  omega

/-! ### The operation table (R83, R84) -/

/-- No two rows match the same byte: decoding is unambiguous. -/
theorem opTable_rows_exclusive :
    ∀ b : Byte, (opTable.filter (OpRow.fits b)).length ≤ 1 := by decide

/-- The reserved codes match no row (R84). -/
theorem opRow_eq_none {b : Byte} : opRow b = none ↔ 6 ≤ b.toNat := by
  revert b; decide

end Sys2Proof
end

