-- ==== Sys2Proof/Laws/Exec.lean ====
section
/-! SUPPORT. What each operation can answer, said once: the guard that decides, and the registers of the state it leaves. -/

namespace Sys2Proof.Machine

/-! ### When an operation answers a next state -/

theorem next_eq_next {s t : State} : (Host.Outcome.next s : Outcome) = .next t ↔ t = s :=
  ⟨fun h => by injection h with h; exact h.symm, fun h => by rw [h]⟩

theorem fault_ne_next {f : Fault} {t : State} : (Host.Outcome.fault f : Outcome) = .next t ↔ False := by
  simp

theorem refused_ne_next {r : Refusal} {t : State} : (Host.Outcome.refused r : Outcome) = .next t ↔ False := by
  simp

theorem State.onceStarted_next {s t : State} {f : State → Outcome} :
    s.onceStarted f = .next t ↔ s.started = true ∧ f s = .next t := by
  unfold State.onceStarted
  split <;> simp_all

/-- `RXB` (R100): started, and the counter inside the buffer. -/
theorem execRxb_next {s t : State} {b : Byte} :
    execRxb b s = .next t ↔ s.started = true ∧ s.blk.rxCnt.toNat < s.bufSize
      ∧ t = rxbAdvance (rxbLeaveIdle (rxbStore b (s.attempt .performed))) := by
  rw [execRxb, State.onceStarted_next]
  split
  · next h => simp only [next_eq_next, h, true_and]
  · next h => simp only [fault_ne_next, h, false_and]

/-- `TMO` (R103): performed when the timer is armed, else ignored. -/
theorem execTmo_next {s t : State} :
    execTmo s = .next t ↔ s.started = true
      ∧ t = if s.blk.timerArmed then tmoRelease (tmoFlush (s.attempt .performed).timerFired)
          else s.attempt .ignored := by
  rw [execTmo, State.onceStarted_next]
  split <;> simp only [State.unperformed, next_eq_next]

/-- `SND` (R121): well-formed, and performed when the lock is free, else held. -/
theorem execSnd_next {s t : State} {m : Message} :
    execSnd m s = .next t ↔ s.started = true ∧ m.wf s.cmdBytes = true
      ∧ t = if s.blk.txLock then s.attempt .held else sndBegin m (s.attempt .performed) := by
  rw [execSnd, State.onceStarted_next]
  split
  · next h => split <;> simp only [State.unperformed, next_eq_next, h, true_and]
  · next h => simp [refused_ne_next, h]

/-- `TXB` (R122): performed when enabled (the counter is then inside the buffer), else not enabled. -/
theorem execTxb_next {s t : State} :
    execTxb s = .next t ↔ s.started = true
      ∧ (if s.txEnabled then s.blk.txIdx.toNat < s.bufSize
            ∧ t = ((s.attempt .performed).emit (.tx s.txByte)).advanceTx
          else t = s.attempt .notEnabled) := by
  rw [execTxb, State.onceStarted_next]
  split
  · split
    · next h => simp only [next_eq_next, h, true_and]
    · next h => simp only [fault_ne_next, h, false_and]
  · simp only [State.unperformed, next_eq_next]

/-- `TRN` (R123): performed when enabled, else not enabled. -/
theorem execTrn_next {s t : State} :
    execTrn s = .next t ↔ s.started = true
      ∧ t = if s.trnEnabled then ((s.attempt .performed).switchLine .receive).startTimer.setTxState .gap
          else s.attempt .notEnabled := by
  rw [execTrn, State.onceStarted_next]
  split <;> simp only [State.unperformed, next_eq_next]

/-- `RST` (R140): always. -/
theorem execRst_next {s t : State} :
    execRst s = .next t ↔ t = (((s.attempt .performed).emit .tcancel).emit (.dir .receive)).resetBlock :=
  next_eq_next

/-! ### The guards, read as registers -/

theorem State.txEnabled_iff {s : State} :
    s.txEnabled = true ↔ s.blk.txState = .sending ∧ s.blk.txIdx.toNat < s.blk.txLen.toNat := by
  simp [State.txEnabled]

theorem State.trnEnabled_iff {s : State} :
    s.trnEnabled = true ↔ s.blk.txState = .sending ∧ s.blk.txIdx = s.blk.txLen := by
  simp [State.trnEnabled]

theorem State.headerDone_iff {s : State} :
    s.headerDone = true ↔ s.blk.faState = .headerPartial ∧ s.blk.rxCnt.toNat = s.headerSize := by
  simp [State.headerDone]

theorem State.payloadDone_iff {s : State} :
    s.payloadDone = true ↔ s.blk.faState = .payloadPartial
      ∧ s.blk.rxCnt.toNat = s.headerSize + s.blk.payLen.toNat := by
  simp [State.payloadDone]

/-! ### The parts of RXB -/

/-- The action that hands a completed frame over (R101, R151). -/
def frameAction (c : CmdBytes) (F : List Byte) : Action :=
  if deserialize c F = .framingError then .rxerr F else .rxdone F

/-- Surfacing a frame is emitting one action. -/
theorem surfaceFrame_eq (F : List Byte) (s : State) : surfaceFrame F s = s.emit (frameAction s.cmdBytes F) := by
  unfold surfaceFrame frameAction
  split <;> simp_all [State.raise, Condition.action]

/-- `Complete()` as one record: the frame's action, the assembler Idle, `rxf_len` valid. -/
theorem complete_eq (s : State) :
    complete s = { s with
      blk := { s.blk with faState := .idle, rxCnt := 0, payLen := 0 }
      rxfLen := some s.blk.rxCnt
      env := s.env.react (frameAction s.cmdBytes s.rxFrame)
      actions := s.actions ++ [frameAction s.cmdBytes s.rxFrame] } := by
  rw [complete, surfaceFrame_eq]
  rfl

/-- The state `RXB` tests: the byte stored, the lock set, the timer started, Idle left (R100). -/
def rxbMid (b : Byte) (s : State) : State := rxbLeaveIdle (rxbStore b (s.attempt .performed))

theorem rxbMid_eq (b : Byte) (s : State) :
    rxbMid b s = { s with
      blk := { s.blk with
        faState := if s.blk.faState = .idle then .headerPartial else s.blk.faState
        rxCnt := s.blk.rxCnt + 1
        buf := Mem.write s.blk.rxCnt.toNat b s.blk.buf
        txLock := true
        timerArmed := true }
      rxfLen := none
      env := { s.env with timerRunning := true }
      actions := [.tstart]
      outcomes := [.performed] } := by
  unfold rxbMid rxbLeaveIdle
  by_cases h : s.blk.faState = .idle
  · rw [if_pos h, if_pos (by simpa [rxbStore] using h)]; rfl
  · rw [if_neg h, if_neg (by simpa [rxbStore] using h)]; rfl

/-- The bytes of `buf` after the byte is stored. -/
theorem rxbMid_byte (b : Byte) (s : State) (a : Nat) :
    (rxbMid b s).byte .buf a = if a = s.blk.rxCnt.toNat then b else s.byte .buf a := by
  by_cases h : a = s.blk.rxCnt.toNat
  · rw [if_pos h, rxbMid_eq, h]; simp [State.byte, Block.mem, Mem.find_write_same]
  · rw [if_neg h, rxbMid_eq]; simp [State.byte, Block.mem, Mem.find_write_other _ _ h]

/-- The counter after the byte is stored does not wrap (R109). -/
theorem rxCnt_succ {s : State} (h : s.blk.rxCnt.toNat < s.bufSize) :
    (s.blk.rxCnt + 1).toNat = s.blk.rxCnt.toNat + 1 := by
  have h1 := s.cmdBytes.headerSize_bounds
  have h2 : s.bufSize = s.cmdBytes.headerSize + 255 := rfl
  rw [BitVec.toNat_add]
  have : (1 : Count).toNat = 1 := rfl
  omega

/-- The frame the stored byte belongs to: what was received, and the byte. -/
theorem rxbMid_rxFrame {b : Byte} {s : State} (h : s.blk.rxCnt.toNat < s.bufSize) :
    (rxbMid b s).rxFrame = s.rxFrame ++ [b] := by
  have hc : (rxbMid b s).blk.rxCnt.toNat = s.blk.rxCnt.toNat + 1 := by
    rw [rxbMid_eq]; exact rxCnt_succ h
  rw [State.rxFrame, hc, State.bytes_succ, rxbMid_byte, Nat.zero_add, if_pos rfl]
  congr 1
  refine State.bytes_congr fun x _ hx => ?_
  rw [rxbMid_byte, if_neg (by omega)]

/-- `RXB` in four cases (R100, R101, R104), from the stored byte on. -/
theorem rxbAdvance_cases (s : State) :
    (rxbAdvance s = complete (s.setPayLen 0) ∧ s.blk.faState = .headerPartial
        ∧ s.blk.rxCnt.toNat = s.headerSize ∧ s.headerPayLen = 0)
    ∨ (rxbAdvance s = (s.setPayLen s.headerPayLen).setFaState .payloadPartial
        ∧ s.blk.faState = .headerPartial ∧ s.blk.rxCnt.toNat = s.headerSize ∧ s.headerPayLen ≠ 0)
    ∨ (rxbAdvance s = complete s ∧ s.blk.faState = .payloadPartial
        ∧ s.blk.rxCnt.toNat = s.headerSize + s.blk.payLen.toNat)
    ∨ (rxbAdvance s = s
        ∧ ¬ (s.blk.faState = .headerPartial ∧ s.blk.rxCnt.toNat = s.headerSize)
        ∧ ¬ (s.blk.faState = .payloadPartial
            ∧ s.blk.rxCnt.toNat = s.headerSize + s.blk.payLen.toNat)) := by
  unfold rxbAdvance rxbHeaderDone
  split
  · next h =>
    rw [State.headerDone_iff] at h
    split
    · next h0 => rw [h0]; exact .inl ⟨rfl, h.1, h.2, rfl⟩
    · next h0 => exact .inr (.inl ⟨rfl, h.1, h.2, h0⟩)
  · next h =>
    rw [State.headerDone_iff] at h
    split
    · next h' => rw [State.payloadDone_iff] at h'; exact .inr (.inr (.inl ⟨rfl, h'.1, h'.2⟩))
    · next h' => rw [State.payloadDone_iff] at h'; exact .inr (.inr (.inr ⟨rfl, h, h'⟩))

end Sys2Proof.Machine
end

