-- ==== Sys2Proof/Laws/Cycle.lean ====
section
/-! SUPPORT. What a sequence of operations and what a clock cycle can answer, said once (spec R59, R87, R156). -/

namespace Sys2Proof.Machine

/-! ### Sequences of operations -/

theorem performAll_nil {s t : State} : performAll [] s = .next t ↔ t = { s with actions := [], outcomes := [] } :=
  next_eq_next

theorem performAll_cons {i : Instr} {is : List Instr} {s t : State} :
    performAll (i :: is) s = .next t
      ↔ ∃ u v, exec i s = .next u ∧ performAll is u = .next v ∧ t = u.reportsAfter v := by
  simp only [performAll]
  cases hu : exec i s with
  | next u => cases hv : performAll is u <;> simp [hv, eq_comm]
  | fault f => simp
  | refused r => simp

/-! ### The staging write (R87) -/

/-- A staging write changes `txb` and nothing else. -/
theorem State.stage_eq (p : PortIn) (s : State) :
    s.stage p = { s with blk := { s.blk with txb := (s.stage p).blk.txb } } := by
  unfold State.stage
  split <;> rfl

@[simp] theorem State.stage_started (p : PortIn) (s : State) : (s.stage p).started = s.started := by
  rw [State.stage_eq]
@[simp] theorem State.stage_cmdBytes (p : PortIn) (s : State) : (s.stage p).cmdBytes = s.cmdBytes := by
  rw [State.stage_eq]
@[simp] theorem State.stage_tieCount (p : PortIn) (s : State) : (s.stage p).tieCount = s.tieCount := by
  rw [State.stage_eq]

/-- The guards of the cycle's operations do not look at what is staged. -/
theorem cycleOps_stage (p q : PortIn) (s : State) : cycleOps p (s.stage q) = cycleOps p s := by
  rw [State.stage_eq]
  rfl

theorem State.openCycle_started (p : PortIn) (s : State) : (s.openCycle p).started = s.started :=
  State.stage_started p s

/-- Without the write enable a cycle stages nothing, and its request reads the ports and `txb` as they are. -/
theorem State.openCycle_of_no_write {p : PortIn} {s : State} (h : p.plwEn = false) :
    s.openCycle p = s ∧ s.requestedMessage p = s.portMessage p := by
  simp [State.openCycle, State.requestedMessage, State.stage, State.stagingTie, State.stagingWrites, h]

/-- Without a tie the operations of the cycle begin, and its request is read, after the write. -/
theorem State.openCycle_of_no_tie {p : PortIn} {s : State} (h : s.stagingTie p = false) :
    s.openCycle p = s.stage p ∧ s.requestedMessage p = (s.stage p).portMessage p := by
  simp only [State.openCycle, State.requestedMessage, h]
  exact ⟨by rw [← State.stage_tieCount p s]; rfl, rfl⟩

/-- In a tie the write is done and the tie counted, and the request is read before or after the write (log 12). -/
theorem State.openCycle_of_tie {p : PortIn} {s : State} (h : s.stagingTie p = true) :
    s.openCycle p = { s.stage p with tieCount := s.tieCount + 1 }
      ∧ (s.requestedMessage p = s.portMessage p ∨ s.requestedMessage p = (s.stage p).portMessage p) := by
  refine ⟨by simp [State.openCycle, h], ?_⟩
  simp only [State.requestedMessage, h, if_true]
  split
  · exact .inr rfl
  · exact .inl rfl

/-! ### What a cycle answers (R156) -/

/-- The request of a cycle (R156 step 6): held with the lock set, else the answer of its `SND` after the reports of the
cycle. -/
theorem grantSend_next {m : Option Message} {t v : State} :
    grantSend m t = .next v
      ↔ (t.blk.txLock = true ∧ v = { t with outcomes := t.outcomes ++ [.held] })
        ∨ (t.blk.txLock = false
            ∧ ∃ m', m = some m' ∧ ∃ u, exec (.snd m') t = .next u ∧ v = t.reportsAfter u) := by
  unfold grantSend
  cases h : t.blk.txLock with
  | true => simp [State.reportsAfter, State.attempt, eq_comm]
  | false =>
    cases m with
    | none => simp
    | some m => cases hx : exec (.snd m) t <;> simp [hx, eq_comm]

/-- A cycle without `rst` (R156): the operations of its steps 2 to 5, then its request. -/
theorem runCycle_next {p : PortIn} {s t : State} :
    runCycle p s = .next t
      ↔ ∃ u, performAll (cycleOps p s) (s.openCycle p) = .next u
          ∧ (if p.sndReq then grantSend (s.requestedMessage p) u else .next u) = .next t := by
  unfold runCycle
  cases hu : performAll (cycleOps p s) (s.openCycle p) <;> simp

/-- A clock cycle (R87, R156): `RST` alone, or, once started, the rest. -/
theorem clockCycle_next {p : PortIn} {s t : State} :
    clockCycle p s = .next t
      ↔ if p.rst then exec .rst s = .next t else s.started = true ∧ runCycle p s = .next t := by
  unfold clockCycle
  split
  · rfl
  · exact State.onceStarted_next

end Sys2Proof.Machine
end

