-- ==== Sys2Proof/Laws/PerInstr.lean ====
section
/-! SUPPORT. The statement made of every operation as syntax: its encoding begins with the code of its row and has the length
of that row's format (spec R82, R83). -/

namespace Sys2Proof.Laws.EncodingShape

/-- The first byte selects the operation's own row of the table, and the encoding is as long as the row's format says: one
byte for `E0`, two for `E1`, `1 + HEADER_SIZE + n` for `EM` with `n` payload bytes (R82, R83). -/
def Statement (i : Instr) : Prop :=
  ∀ c : CmdBytes, ∃ r, opRow (byteAt (encode c i) 0) = some r ∧ r.name = i.name
    ∧ (r.format = .E0 → (encode c i).length = 1)
    ∧ (r.format = .E1 → (encode c i).length = 2)
    ∧ (r.format = .EM → ∃ m, i = .snd m ∧ (encode c i).length = 1 + c.headerSize + m.payload.length)

theorem rst : Statement .rst := fun _ =>
  ⟨⟨.RST, .E0, 0x00, 0xFF⟩, by change opRow 0x00 = _; decide, rfl, fun _ => rfl, by simp, by simp⟩

theorem rxb (b : Byte) : Statement (.rxb b) := fun _ =>
  ⟨⟨.RXB, .E1, 0x01, 0xFF⟩, by change opRow 0x01 = _; decide, rfl, by simp, fun _ => rfl, by simp⟩

theorem tmo : Statement .tmo := fun _ =>
  ⟨⟨.TMO, .E0, 0x02, 0xFF⟩, by change opRow 0x02 = _; decide, rfl, fun _ => rfl, by simp, by simp⟩

theorem snd (m : Message) : Statement (.snd m) := fun c =>
  ⟨⟨.SND, .EM, 0x03, 0xFF⟩, by change opRow 0x03 = _; decide, rfl, by simp, by simp, fun _ => ⟨m, rfl, by simp [encode]; omega⟩⟩

theorem txb : Statement .txb := fun _ =>
  ⟨⟨.TXB, .E0, 0x04, 0xFF⟩, by change opRow 0x04 = _; decide, rfl, fun _ => rfl, by simp, by simp⟩

theorem trn : Statement .trn := fun _ =>
  ⟨⟨.TRN, .E0, 0x05, 0xFF⟩, by change opRow 0x05 = _; decide, rfl, fun _ => rfl, by simp, by simp⟩

end Sys2Proof.Laws.EncodingShape
end

