-- ==== Sys2Proof/Tests/Slice0.lean ====
section
/-! SUPPORT. The model's own tests. Expected results are those of spec/95_test_vectors.md (V<n>, P<n>) and of the worked
examples beside the rules, never the model's own answers. At the end, for every obligation that has hypotheses, a witness
that meets them. -/

namespace Sys2Proof.Tests

open Sys2Proof Sys2Proof.Machine

/-! ### The messages of 95_test_vectors.md section 0 -/

def m0 : Message := ⟨.broadcast, 0x0000, 0x0007, 0x01, []⟩
def m1 : Message := ⟨.byId, 0x0102, 0x0A0B, 0x05, [0xDE, 0xAD]⟩
def m2 : Message := ⟨.byId, 0x0102, 0x0A0B, 0x1234, [0xDE, 0xAD]⟩
def sniffed : Message := ⟨.sniffer, 0x0000, 0x0007, 0x01, []⟩

def f0 : List Byte := [0x00, 0x00, 0x00, 0x07, 0x00, 0x01, 0x00]
def f1 : List Byte := [0x01, 0x02, 0x01, 0x0B, 0x0A, 0x05, 0x02, 0xDE, 0xAD]

/-! ### Well-formedness: an ill-formed term for each check (R73) -/

theorem test_wf_examples : m0.wf .one = true ∧ m1.wf .one = true ∧ m2.wf .two = true := by decide

/-- V10: Sniffer is no wire mode. -/
theorem test_wf_refuses_sniffer : sniffed.wf .one = false ∧ sniffed.wf .two = false := by decide

/-- V11: 256 payload bytes are one too many; 255 are not. -/
theorem test_wf_refuses_long_payload :
    Message.wf .one ⟨.byId, 0, 0, 0, List.replicate 256 0⟩ = false
      ∧ Message.wf .one ⟨.byId, 0, 0, 0, List.replicate 255 0⟩ = true := by
  simp only [Message.wf, List.length_replicate]
  decide

/-- Log 8: a command of more than one byte does not fit `CMD_BYTES = 1`. -/
theorem test_wf_refuses_wide_command : m2.wf .one = false := by decide

theorem test_wf_operations :
    Instr.wf .one (.snd sniffed) = false ∧ Instr.wf .one (.snd m1) = true ∧ Instr.wf .one (.rxb 0xFF) = true := by
  decide

/-! ### serialize and deserialize (V1 to V9) -/

theorem test_serialize_v1_v2 : serialize .one m1 = f1 ∧ serialize .one m0 = f0 := by decide

theorem test_serialize_v3_v5_v6 :
    serialize .two m2 = [0x01, 0x02, 0x01, 0x0B, 0x0A, 0x34, 0x12, 0x02, 0xDE, 0xAD]
      ∧ serialize .one ⟨.byType, 0x8000, 0x0001, 0x00, [0x00]⟩ = [0x02, 0x00, 0x80, 0x01, 0x00, 0x00, 0x01, 0x00]
      ∧ serialize .two ⟨.broadcast, 0x1234, 0xABCD, 0x0001, []⟩
          = [0x00, 0x34, 0x12, 0xCD, 0xAB, 0x01, 0x00, 0x00] := by decide

theorem test_deserialize_v7_v8_v9 :
    deserialize .one [0x04, 0x00, 0x00, 0x00, 0x00, 0x09, 0x00] = .framingError
      ∧ deserialize .one [0xFF, 0x00, 0x00, 0x00, 0x00, 0x09, 0x00] = .framingError
      ∧ deserialize .one [0x03, 0xFF, 0xFF, 0xFF, 0xFF, 0xFF, 0x00]
          = .message ⟨.byGroup, 0xFFFF, 0xFFFF, 0xFF, []⟩ := by decide

theorem test_deserialize_v1 : deserialize .one f1 = .message m1 := by decide

/-! ### Decoding: words written out from R82, R83, one for every operation (V36 to V42) -/

theorem test_decode_rst : decode .one [0x00, 0x01] = .op .rst [0x01] := by decide
theorem test_decode_rxb : decode .one [0x01, 0xDE, 0x02] = .op (.rxb 0xDE) [0x02] := by decide
theorem test_decode_tmo : decode .one [0x02] = .op .tmo [] := by decide
theorem test_decode_snd_v37 :
    decode .one [0x03, 0x00, 0x00, 0x00, 0x07, 0x00, 0x01, 0x00, 0x04, 0x04] = .op (.snd m0) [0x04, 0x04] := by decide
theorem test_decode_snd_v38 :
    decode .one [0x03, 0x01, 0x02, 0x01, 0x0B, 0x0A, 0x05, 0x02, 0xDE, 0xAD, 0x05] = .op (.snd m1) [0x05] := by decide
theorem test_decode_snd_two :
    decode .two [0x03, 0x01, 0x02, 0x01, 0x0B, 0x0A, 0x34, 0x12, 0x02, 0xDE, 0xAD] = .op (.snd m2) [] := by decide
theorem test_decode_txb : decode .one [0x04, 0x04] = .op .txb [0x04] := by decide
theorem test_decode_trn : decode .one [0x05] = .op .trn [] := by decide

/-- V39 to V42: what is refused, and why. -/
theorem test_decode_refuses :
    decode .one [0x06] = .refused (.reservedCode 0x06)
      ∧ decode .one [0x03, 0x04, 0x00, 0x00, 0x07, 0x00, 0x01, 0x00] = .refused (.badTargetMode 0x04)
      ∧ decode .one [0x03, 0x01, 0x02, 0x01, 0x0B, 0x0A, 0x05, 0x02, 0xDE] = .refused (.truncated .SND)
      ∧ decode .one [0x01] = .refused (.truncated .RXB)
      ∧ decode .one [] = .refused .noOperation := by decide

/-- A word of the opcode table: byte 0 is its least significant byte. -/
theorem test_decode_table_word :
    decodeTableWord 16 0xDE01 = some (.rxb 0xDE) ∧ decodeTableWord 8 0x02 = some .tmo
      ∧ decodeTableWord 8 0x06 = none := by decide

/-! ### Running the machine -/

/-- The next state an outcome gives; the given one where there is none. -/
def nextOr (s : State) : Outcome → State
  | .next t => t
  | .fault _ => s
  | .refused _ => s

/-- The state some operations lead to from reset. -/
def after (ops : List Instr) : State := nextOr .reset (performAll ops .reset)

/-- The nine registers in the order of 95_test_vectors.md section 0: `fa_state rx_cnt pay_len ; tx_lock dir tx_state
tx_idx/tx_len timer_armed`. -/
structure Registers where
  faState    : FaState
  rxCnt      : Nat
  payLen     : Nat
  txLock     : Bool
  dir        : Dir
  txState    : TxState
  txIdx      : Nat
  txLen      : Nat
  timerArmed : Bool
  deriving DecidableEq, Repr

def registers (s : State) : Registers :=
  ⟨s.blk.faState, s.blk.rxCnt.toNat, s.blk.payLen.toNat, s.blk.txLock, s.blk.dir, s.blk.txState,
    s.blk.txIdx.toNat, s.blk.txLen.toNat, s.blk.timerArmed⟩

/-- The reset state of 95_test_vectors.md section 0. -/
def quiet : Registers := ⟨.idle, 0, 0, false, .receive, .txIdle, 0, 0, false⟩

/-- What a line of a vector shows: registers, actions, outcome words. -/
structure Shown where
  regs     : Registers
  actions  : List Action
  outcomes : List OutcomeWord
  deriving DecidableEq, Repr

/-- What an outcome shows; none for a fault or a refusal. -/
def shown : Outcome → Option Shown
  | .next t => some ⟨registers t, t.actions, t.outcomes⟩
  | .fault _ => none
  | .refused _ => none

/-- Whether an outcome is the refusal of an ill-formed send. -/
def refusesSend : Outcome → Bool
  | .next _ => false
  | .fault _ => false
  | .refused r => r == .illFormedSend

def rxs (L : List Byte) : List Instr := L.map Instr.rxb

/-- `SND m0` and `k` accepted bytes. -/
def sending (k : Nat) : List Instr := Instr.snd m0 :: List.replicate k Instr.txb

/-- All of `m0` sent and the line turned back. -/
def inGap : List Instr := sending 7 ++ [Instr.trn]

def wholeSend : List Instr := inGap ++ [Instr.tmo]

/-! ### One step of each operation -/

/-- V34 step 8: `RST` in mid-send. -/
theorem test_rst : shown (exec .rst (after (sending 2))) = some ⟨quiet, [.tcancel, .dir .receive], [.performed]⟩ := by
  decide

/-- R180: `RST` is performed before the first reset, and nothing else is. -/
theorem test_before_reset :
    shown (exec .rst (State.beforeReset .one (after (sending 2)).blk))
        = some ⟨quiet, [.tcancel, .dir .receive], [.performed]⟩
      ∧ shown (exec .tmo (State.beforeReset .two .reset)) = none := by decide

/-- V13 step 1: the seventh byte completes the header. -/
theorem test_rxb_header :
    shown (exec (.rxb 0x02) (after (rxs [0x01, 0x02, 0x01, 0x0B, 0x0A, 0x05])))
      = some ⟨⟨.payloadPartial, 7, 2, true, .receive, .txIdle, 0, 0, true⟩, [.tstart], [.performed]⟩ := by decide

/-- V14 step 7: a bad tag is reported at the end of the frame. -/
theorem test_rxb_bad_tag :
    shown (exec (.rxb 0x00) (after (rxs [0x04, 0x00, 0x00, 0x00, 0x00, 0x09])))
      = some ⟨⟨.idle, 0, 0, true, .receive, .txIdle, 0, 0, true⟩,
          [.tstart, .rxerr [0x04, 0x00, 0x00, 0x00, 0x00, 0x09, 0x00]], [.performed]⟩ := by decide

/-- V21 step 2: flush and release. -/
theorem test_tmo_flush :
    shown (exec .tmo (after (rxs [0x01, 0x02, 0x01, 0x0B, 0x0A, 0x05, 0x02, 0xDE])))
      = some ⟨quiet, [.flush 8], [.performed]⟩ := by decide

/-- V24 step 4: while sending, flush but keep the lock. -/
theorem test_tmo_sending :
    shown (exec .tmo (after (sending 1 ++ rxs [0x00])))
      = some ⟨⟨.idle, 0, 0, true, .transmit, .sending, 1, 7, false⟩, [.flush 1], [.performed]⟩ := by decide

/-- V26 step 1: the whole frame is latched. -/
theorem test_snd :
    shown (exec (.snd m1) .reset)
        = some ⟨⟨.idle, 0, 0, true, .transmit, .sending, 0, 9, false⟩, [.dir .transmit], [.performed]⟩
      ∧ (after [.snd m1]).txFrame = f1 := by decide

/-- V29: refusal is tested before the lock; V30 step 2: a locked line holds. -/
theorem test_snd_refused_held :
    refusesSend (exec (.snd sniffed) (after [.rxb 0x00])) = true
      ∧ shown (exec (.snd m0) (after [.rxb 0xA5]))
          = some ⟨⟨.headerPartial, 1, 0, true, .receive, .txIdle, 0, 0, true⟩, [], [.held]⟩ := by decide

/-- R122, example: the fourth byte of `m0` is 07. -/
theorem test_txb :
    shown (exec .txb (after (sending 3)))
      = some ⟨⟨.idle, 0, 0, true, .transmit, .sending, 4, 7, false⟩, [.tx 0x07], [.performed]⟩ := by decide

/-- V28 step 12: no byte is left. -/
theorem test_txb_not_enabled :
    shown (exec .txb (after (sending 7)))
      = some ⟨⟨.idle, 0, 0, true, .transmit, .sending, 7, 7, false⟩, [], [.notEnabled]⟩ := by decide

/-- V23 step 1: the turnaround. -/
theorem test_trn :
    shown (exec .trn (after (sending 7)))
      = some ⟨⟨.idle, 0, 0, true, .receive, .gap, 7, 7, true⟩, [.dir .receive, .tstart], [.performed]⟩ := by decide

/-- V28 step 4: not before the last byte. -/
theorem test_trn_not_enabled :
    shown (exec .trn (after (sending 0)))
      = some ⟨⟨.idle, 0, 0, true, .transmit, .sending, 0, 7, false⟩, [], [.notEnabled]⟩ := by decide

/-! ### Clock cycles (V43 to V50, R87) -/

def idlePorts : PortIn := .quiet

/-- The field ports of `m0`, requested. -/
def askM0 : PortIn := { idlePorts with sndReq := true, sndSource := 0x0007, sndCmd := 0x01 }

theorem test_cycle_v43 :
    shown (clockCycle { idlePorts with rxValid := true, rxData := 0x0B, tmrFired := true }
        (after (rxs [0x01, 0x02, 0x01])))
      = some ⟨⟨.headerPartial, 4, 0, true, .receive, .txIdle, 0, 0, true⟩, [.tstart], [.performed]⟩ := by decide

theorem test_cycle_v44 :
    shown (clockCycle { askM0 with tmrFired := true } (after (rxs f0)))
      = some ⟨⟨.idle, 0, 0, true, .transmit, .sending, 0, 7, false⟩, [.dir .transmit],
          [.performed, .performed]⟩ := by decide

theorem test_cycle_v45 :
    shown (clockCycle { askM0 with rxValid := true } .reset)
      = some ⟨⟨.headerPartial, 1, 0, true, .receive, .txIdle, 0, 0, true⟩, [.tstart], [.performed, .held]⟩ := by
  decide

theorem test_cycle_v46_v47 :
    shown (clockCycle { idlePorts with txReady := true } (after (sending 6)))
        = some ⟨⟨.idle, 0, 0, true, .transmit, .sending, 7, 7, false⟩, [.tx 0x00], [.performed]⟩
      ∧ shown (clockCycle idlePorts (after (sending 7)))
        = some ⟨⟨.idle, 0, 0, true, .receive, .gap, 7, 7, true⟩, [.dir .receive, .tstart], [.performed]⟩ := by
  decide

theorem test_cycle_v48 :
    shown (clockCycle { idlePorts with rxValid := true }
        (after (sending 7 ++ rxs [0x00, 0x00, 0x00, 0x07, 0x00, 0x01])))
      = some ⟨⟨.idle, 0, 0, true, .receive, .gap, 7, 7, true⟩,
          [.tstart, .rxdone f0, .dir .receive, .tstart], [.performed, .performed]⟩ := by decide

theorem test_cycle_v49 :
    shown (clockCycle { askM0 with rst := true, rxValid := true, tmrFired := true, txReady := true }
        (after (sending 3 ++ rxs [0x01, 0x02])))
      = some ⟨quiet, [.tcancel, .dir .receive], [.performed]⟩ := by decide

/-- V50: the end of the gap lets the request through in the same cycle. -/
theorem test_cycle_v50 :
    shown (clockCycle { askM0 with tmrFired := true, sndMode := 0x01, sndSize := 2 } (after (inGap)))
      = some ⟨⟨.idle, 0, 0, true, .transmit, .sending, 0, 9, false⟩, [.snddone, .dir .transmit],
          [.performed, .performed]⟩ := by decide

/-- R87: two staged bytes and a request with the fields of `m1` send `m1`. -/
theorem test_staging :
    (nextOr .reset (clockCycle
        { askM0 with sndMode := 0x01, sndTarget := 0x0102, sndSource := 0x0A0B, sndCmd := 0x05, sndSize := 2 }
        (nextOr .reset (clockCycle { idlePorts with plwEn := true, plwAddr := 1, plwData := 0xAD }
          (nextOr .reset (clockCycle { idlePorts with plwEn := true, plwAddr := 0, plwData := 0xDE } .reset)))))).txFrame
      = f1 := by decide

/-- R86, R156 step 6: with the lock set no `SND` is attempted, not even of a mode that is none. -/
theorem test_cycle_bad_request :
    shown (clockCycle { askM0 with sndMode := 0x04 } (after [.rxb 0x00]))
        = some ⟨⟨.headerPartial, 1, 0, true, .receive, .txIdle, 0, 0, true⟩, [], [.held]⟩
      ∧ refusesSend (clockCycle { askM0 with sndMode := 0x04 } .reset) = true := by decide

/-- R86: the ports after the byte that completes a frame. -/
theorem test_outputs :
    (outputs 3 (after (rxs f0))).rxfErr = some false ∧ (outputs 3 (after (rxs f0))).rxfLen = some 7
      ∧ (outputs 3 (after (rxs f0))).rxrData = some 0x07 ∧ (outputs 3 (after (rxs f0))).lock = true := by decide

/-- R80: the state codes. -/
theorem test_state_codes :
    FaState.payloadPartial.code = 0b10 ∧ TxState.sending.code = 0b01 ∧ dirCode .transmit = 1 ∧ lockCode true = 1 := by
  decide

/-! ### The step, the timer and the script text -/

/-- P1 steps 1 and 2: a step runs the trace's next operation. -/
theorem test_step_trace :
    shown (step { State.reset with trace := [0x00, 0x01, 0x01] })
        = some ⟨quiet, [.tcancel, .dir .receive], [.performed]⟩
      ∧ shown (step { State.reset with trace := [0x01, 0x01] })
        = some ⟨⟨.headerPartial, 1, 0, true, .receive, .txIdle, 0, 0, true⟩, [.tstart], [.performed]⟩ := by decide

/-- R199: a byte exactly one `ONE_BYTE_TIME` after its predecessor continues the frame; one unit later it cannot occur
before the `TMO`. -/
theorem test_deadline :
    ((Timed.run 10 [(5, .rxb 1), (15, .rxb 2)] .reset).map (fun w => w.state.blk.rxCnt)) = some 2
      ∧ (Timed.run 10 [(5, .rxb 1), (16, .rxb 2)] .reset).isNone = true
      ∧ ((Timed.run 10 [(5, .rxb 1), (15, .tmo), (16, .rxb 2)] .reset).map (fun w => w.state.blk.rxCnt)) = some 1 := by
  decide

/-- R89: the lines of its example. -/
theorem test_script :
    scriptLine .rst .reset = "RST -> TCANCEL DIR(Receive)".toList
      ∧ scriptLine .tmo (after [.rxb 0x01]) = "TMO -> FLUSH(1)".toList
      ∧ scriptLine (.snd m1) .reset = "SND (ById, 0x0102, 0x0A0B, 0x05, [DE AD]) -> DIR(Transmit)".toList
      ∧ scriptLine .txb (after [.snd m1]) = "TXB -> TX(0x01)".toList := by decide

/-- R90: the pseudo-operation `TXALL` in mid-send. -/
theorem test_txall : Pseudo.txall.expand .one (after (sending 4)) = [.txb, .txb, .txb] := by decide

/-! ### Witnesses: for every obligation with hypotheses, states and operands that meet them -/

/-- The state an operation leaves. -/
def result (i : Instr) (s : State) : State := nextOr s (exec i s)

/-- The state a clock cycle leaves. -/
def cycled (p : PortIn) (s : State) : State := nextOr s (clockCycle p s)

/-- Whether an outcome is a next state. -/
def goesOn : Outcome → Bool
  | .next _ => true
  | .fault _ => false
  | .refused _ => false

theorem eq_nextOr (s : State) {o : Outcome} (h : goesOn o = true) : o = .next (nextOr s o) := by
  cases o <;> simp_all [goesOn, nextOr]

theorem witness_RstReturnsToQuiescent : { idlePorts with rst := true }.rst = true := by decide

theorem witness_RstEstablishesInvariant :
    exec .rst (after (sending 2)) = .next (result .rst (after (sending 2))) :=
  eq_nextOr _ (by decide)

theorem witness_OnlyRstBeforeFirstReset :
    (State.beforeReset .two .reset).started = false ∧ Instr.tmo ≠ .rst ∧ idlePorts.rst = false ∧ { idlePorts with rst := true }.rst = true := by
  repeat' apply And.intro
  all_goals decide

/-- One state for each of the five ways a byte can go on, each at its boundary. -/
theorem witness_RxbFollowsPseudocode :
    ((after []).Inv ∧ (after []).started = true)
    ∧ ((after (rxs (f0.take 5))).Inv ∧ (after (rxs (f0.take 5))).started = true
        ∧ (after (rxs (f0.take 5))).blk.rxCnt.toNat + 1 < 7)
    ∧ ((after (rxs (f0.take 6))).Inv ∧ (after (rxs (f0.take 6))).started = true
        ∧ (after (rxs (f0.take 6))).blk.rxCnt.toNat + 1 = 7)
    ∧ ((after (rxs (f1.take 7))).Inv ∧ (after (rxs (f1.take 7))).started = true
        ∧ (after (rxs (f1.take 7))).blk.faState = .payloadPartial)
    ∧ ((after (rxs (f1.take 8))).Inv ∧ (after (rxs (f1.take 8))).started = true
        ∧ (after (rxs (f1.take 8))).blk.rxCnt.toNat + 1 = 7 + (after (rxs (f1.take 8))).blk.payLen.toNat) := by
  repeat' apply And.intro
  all_goals decide

theorem witness_RxbFrame : exec (.rxb 0x55) (after (sending 1)) = .next (result (.rxb 0x55) (after (sending 1))) :=
  eq_nextOr _ (by decide)

theorem witness_CompletedFrameHoldsLockForGap :
    (after (rxs (f0.take 6))).Inv
    ∧ exec (.rxb 0x00) (after (rxs (f0.take 6))) = .next (result (.rxb 0x00) (after (rxs (f0.take 6))))
    ∧ completions (result (.rxb 0x00) (after (rxs (f0.take 6)))).actions ≠ []
    ∧ m0.wf (result (.rxb 0x00) (after (rxs (f0.take 6)))).cmdBytes = true
    ∧ (result (.rxb 0x00) (after (rxs (f0.take 6)))).blk.txState = .txIdle := by
  repeat' apply And.intro
  all_goals first | decide | exact eq_nextOr _ (by decide)

/-- Timer off; then armed with the assembler busy or idle, and with no send, a send in the gap, a send under way. -/
theorem witness_TmoFollowsFourCases :
    (State.reset.started = true ∧ State.reset.blk.timerArmed = false)
    ∧ ((after (rxs [0x01])).blk.timerArmed = true ∧ (after (rxs [0x01])).blk.faState ≠ .idle)
    ∧ ((after (rxs f0)).blk.timerArmed = true ∧ (after (rxs f0)).blk.faState = .idle)
    ∧ ((after (inGap)).blk.timerArmed = true ∧ (after (inGap)).blk.txState = .gap)
    ∧ ((after (sending 1 ++ rxs [0x00])).blk.timerArmed = true
        ∧ (after (sending 1 ++ rxs [0x00])).blk.txState = .sending) := by
  repeat' apply And.intro
  all_goals decide

theorem witness_TmoFrame : exec .tmo (after (rxs [0x01])) = .next (result .tmo (after (rxs [0x01]))) :=
  eq_nextOr _ (by decide)

theorem witness_SndPerformedHeldOrRefused :
    State.reset.started = true ∧ sniffed.wf State.reset.cmdBytes = false ∧ m1.wf State.reset.cmdBytes = true
    ∧ State.reset.blk.txLock = false ∧ (after [.rxb 0]).started = true
    ∧ m1.wf (after [.rxb 0]).cmdBytes = true ∧ (after [.rxb 0]).blk.txLock = true := by
  repeat' apply And.intro
  all_goals decide

theorem witness_SndFrame : exec (.snd m1) .reset = .next (result (.snd m1) .reset) :=
  eq_nextOr _ (by decide)

theorem witness_SendBeginsOnlyWhenQuiescent :
    State.reset.Inv ∧ exec (.snd m1) .reset = .next (result (.snd m1) .reset)
    ∧ (result (.snd m1) .reset).outcomes = [.performed] := by
  repeat' apply And.intro
  all_goals first | decide | exact eq_nextOr _ (by decide)

/-- One byte left, and none left. -/
theorem witness_TxbHandsOverPresentedByte :
    ((after (sending 6)).Inv ∧ (after (sending 6)).started = true ∧ (after (sending 6)).blk.txState = .sending
      ∧ (after (sending 6)).blk.txIdx.toNat < (after (sending 6)).blk.txLen.toNat)
    ∧ ((after (sending 7)).Inv ∧ (after (sending 7)).started = true
      ∧ ¬ (after (sending 7)).blk.txIdx.toNat < (after (sending 7)).blk.txLen.toNat) := by
  repeat' apply And.intro
  all_goals decide

theorem witness_TrnTurnsLineAround :
    ((after (sending 7)).started = true ∧ (after (sending 7)).blk.txState = .sending
      ∧ (after (sending 7)).blk.txIdx = (after (sending 7)).blk.txLen)
    ∧ ((after (sending 6)).started = true ∧ ¬ (after (sending 6)).blk.txIdx = (after (sending 6)).blk.txLen) := by
  repeat' apply And.intro
  all_goals decide

theorem witness_TxbTrnRstFrame :
    exec .txb (after (sending 1)) = .next (result .txb (after (sending 1)))
    ∧ exec .trn (after (sending 7)) = .next (result .trn (after (sending 7)))
    ∧ exec .rst (after (sending 7)) = .next (result .rst (after (sending 7))) := by
  repeat' apply And.intro
  all_goals first | decide | exact eq_nextOr _ (by decide)

theorem witness_LockWrites :
    (exec (.rxb 0) .reset = .next (result (.rxb 0) .reset) ∧ State.reset.blk.txLock = false)
    ∧ (exec .tmo (after [.rxb 0]) = .next (result .tmo (after [.rxb 0])) ∧ (after [.rxb 0]).blk.txLock = true) := by
  repeat' apply And.intro
  all_goals first | decide | exact eq_nextOr _ (by decide)

theorem witness_DirectionAndTimerWrites :
    exec .trn (after (sending 7)) = .next (result .trn (after (sending 7))) :=
  eq_nextOr _ (by decide)

/-- A send turns the line one way, the turnaround the other. -/
theorem witness_DirectionAlternates :
    (State.reset.Inv ∧ exec (.snd m0) .reset = .next (result (.snd m0) .reset)
      ∧ .dir .transmit ∈ (result (.snd m0) .reset).actions
      ∧ (result (.snd m0) .reset).blk.dir ≠ State.reset.blk.dir)
    ∧ ((after (sending 7)).Inv ∧ exec .trn (after (sending 7)) = .next (result .trn (after (sending 7)))
      ∧ .dir .receive ∈ (result .trn (after (sending 7))).actions) := by
  repeat' apply And.intro
  all_goals first | decide | exact eq_nextOr _ (by decide)

theorem witness_InvariantKeptByEveryOperation :
    (after (inGap ++ rxs [0x55])).Inv
    ∧ exec .tmo (after (inGap ++ rxs [0x55])) = .next (result .tmo (after (inGap ++ rxs [0x55])))
    ∧ (result .tmo (after (inGap ++ rxs [0x55]))).blk.txLock = false := by
  repeat' apply And.intro
  all_goals first | decide | exact eq_nextOr _ (by decide)

/-- The state a step leaves. -/
def stepped (s : State) : State := nextOr s (step s)

/-- One step by the trace and one by the ports. -/
theorem witness_StepKeepsInvariant :
    ({ State.reset with trace := [0x01, 0xDE] }.Inv
      ∧ step { State.reset with trace := [0x01, 0xDE] } = .next (stepped { State.reset with trace := [0x01, 0xDE] }))
    ∧ ((after (sending 7)).Inv ∧ step (after (sending 7)) = .next (stepped (after (sending 7)))) := by
  repeat' apply And.intro
  all_goals first | decide | exact eq_nextOr _ (by decide)

theorem witness_InvariantExcludesFaults : (after (sending 7 ++ rxs (f0.take 6))).Inv := by decide

/-- A state of each of the five classes. -/
theorem witness_OutcomeOfEveryOperation :
    (State.reset.Inv ∧ State.reset.started = true ∧ State.reset.classOf = .quiescent)
    ∧ ((after [.rxb 0]).Inv ∧ (after [.rxb 0]).started = true ∧ (after [.rxb 0]).classOf = .locked)
    ∧ ((after (sending 6)).Inv ∧ (after (sending 6)).started = true ∧ (after (sending 6)).classOf = .sendingMore)
    ∧ ((after (sending 7)).Inv ∧ (after (sending 7)).started = true ∧ (after (sending 7)).classOf = .sendingDone)
    ∧ ((after (inGap)).Inv ∧ (after (inGap)).started = true
        ∧ (after (inGap)).classOf = .gap) := by
  repeat' apply And.intro
  all_goals decide

/-- Each operation offered where a well-behaved environment may offer it. -/
theorem witness_OfferedOperationsPerformedOrHeld :
    (State.reset.Inv ∧ State.reset.Offers .rst ∧ State.reset.Offers (.rxb 0xFF) ∧ State.reset.Offers (.snd m1))
    ∧ ((after [.rxb 0]).Inv ∧ (after [.rxb 0]).Offers .tmo)
    ∧ ((after (sending 6)).Inv ∧ (after (sending 6)).Offers .txb)
    ∧ ((after (sending 7)).Inv ∧ (after (sending 7)).Offers .trn) := by
  repeat' apply And.intro
  all_goals decide

/-- A bad frame, a good one, and an abandoned one. -/
theorem witness_ReportsOfFramesAndTimeouts :
    ((after (rxs [0x04, 0x00, 0x00, 0x00, 0x00, 0x09])).Inv
      ∧ exec (.rxb 0x00) (after (rxs [0x04, 0x00, 0x00, 0x00, 0x00, 0x09]))
          = .next (result (.rxb 0x00) (after (rxs [0x04, 0x00, 0x00, 0x00, 0x00, 0x09])))
      ∧ .rxerr [0x04, 0x00, 0x00, 0x00, 0x00, 0x09, 0x00]
          ∈ (result (.rxb 0x00) (after (rxs [0x04, 0x00, 0x00, 0x00, 0x00, 0x09]))).actions)
    ∧ ((after (rxs (f1.take 8))).Inv
      ∧ exec (.rxb 0xAD) (after (rxs (f1.take 8))) = .next (result (.rxb 0xAD) (after (rxs (f1.take 8))))
      ∧ .rxdone f1 ∈ (result (.rxb 0xAD) (after (rxs (f1.take 8)))).actions)
    ∧ (exec .tmo (after (rxs (f1.take 8))) = .next (result .tmo (after (rxs (f1.take 8))))
      ∧ .flush 8 ∈ (result .tmo (after (rxs (f1.take 8)))).actions) := by
  repeat' apply And.intro
  all_goals first | decide | exact eq_nextOr _ (by decide)

theorem witness_RunsReachTheirEnd :
    State.reset.Inv ∧ State.reset.started = true ∧ ∀ i ∈ wholeSend, i.wf State.reset.cmdBytes = true := by
  repeat' apply And.intro
  all_goals decide

/-- Two states with a different leftover byte. -/
theorem witness_StaleBytesNeverRead :
    { after [] with blk := { (after []).blk with buf := [(0, 0x01)] } }.SameButStale
      { after [] with blk := { (after []).blk with buf := [(0, 0x02)] } } :=
  ⟨rfl, fun _ h => absurd h (Nat.not_lt_zero _), fun _ h => absurd h (Nat.not_lt_zero _)⟩

/-- The four changes of phase. -/
theorem witness_SendPhasesInOrder :
    (State.reset.Inv ∧ exec (.snd m0) .reset = .next (result (.snd m0) .reset)
      ∧ (result (.snd m0) .reset).blk.txState ≠ State.reset.blk.txState)
    ∧ ((after (sending 7)).Inv ∧ exec .trn (after (sending 7)) = .next (result .trn (after (sending 7)))
      ∧ (result .trn (after (sending 7))).blk.txState ≠ (after (sending 7)).blk.txState)
    ∧ ((after (inGap)).Inv
      ∧ exec .tmo (after (inGap)) = .next (result .tmo (after (inGap)))
      ∧ (result .tmo (after (inGap))).blk.txState ≠ (after (inGap)).blk.txState)
    ∧ ((after (sending 1)).Inv ∧ exec .rst (after (sending 1)) = .next (result .rst (after (sending 1)))
      ∧ (result .rst (after (sending 1))).blk.txState ≠ (after (sending 1)).blk.txState) := by
  repeat' apply And.intro
  all_goals first | decide | exact eq_nextOr _ (by decide)

theorem witness_ContextsKeepApart :
    exec .txb (after (sending 1)) = .next (result .txb (after (sending 1))) ∧ Instr.txb ≠ .rst ∧ Instr.txb ≠ .tmo
    ∧ (∀ b, Instr.txb ≠ .rxb b) ∧ (∀ m, Instr.txb ≠ .snd m)
    ∧ exec .tmo (after [.rxb 0]) = .next (result .tmo (after [.rxb 0])) ∧ Instr.tmo ≠ .rst :=
  ⟨eq_nextOr _ (by decide), by decide, by decide, by simp, by simp, eq_nextOr _ (by decide), by decide⟩

theorem witness_SerializeDeserializeRoundTrip :
    m1.wf .one = true ∧ m2.wf .two = true ∧ CmdBytes.headerSize .one ≤ f1.length
    ∧ f1.length = declaredLength .one f1 ∧ deserialize .one f1 = .message m1 := by
  repeat' apply And.intro
  all_goals decide

theorem witness_FrameLayout : m1.wf .one = true ∧ m2.wf .two = true := by
  repeat' apply And.intro
  all_goals decide

/-- The first reserved code, an operation one byte short, and a bad tag. -/
theorem witness_IllFormedTracesRefused :
    6 ≤ (0x06 : Byte).toNat ∧ (f1.take 6).length < CmdBytes.headerSize .one
    ∧ (f1.take 8).length < declaredLength .one (f1.take 8)
    ∧ CmdBytes.headerSize .one ≤ ((0x04 : Byte) :: f0.tail).length
    ∧ declaredLength .one ((0x04 : Byte) :: f0.tail) ≤ ((0x04 : Byte) :: f0.tail).length
    ∧ 3 < (byteAt ((0x04 : Byte) :: f0.tail) 0).toNat
    ∧ decode State.reset.cmdBytes [0x06] = .refused (.reservedCode 0x06) := by
  repeat' apply And.intro
  all_goals decide

theorem witness_DecodeOfEncode :
    Instr.wf .one (.snd m1) = true ∧ Instr.wf .two (.snd m2) = true ∧ Instr.wf .one (.rxb 0xFF) = true := by
  repeat' apply And.intro
  all_goals decide

theorem witness_EncodeOfDecode :
    decode .one (0x03 :: f1 ++ [0x05]) = .op (.snd m1) [0x05] ∧ decode .one [0x00] = .op .rst [] := by
  repeat' apply And.intro
  all_goals decide

theorem witness_StepRunsDecodedOperation :
    decode State.reset.cmdBytes { State.reset with trace := [0x01, 0xDE, 0x02] }.trace = .op (.rxb 0xDE) [0x02] := by decide

theorem witness_QuietStepPerformsDueTurnaround :
    ((after (sending 7)).started = true ∧ (after (sending 7)).trace = [] ∧ (after (sending 7)).cycles = []
      ∧ (after (sending 7)).trnEnabled = true)
    ∧ (State.reset.started = true ∧ State.reset.trace = [] ∧ State.reset.cycles = []
      ∧ State.reset.trnEnabled = false) := by
  repeat' apply And.intro
  all_goals decide

/-- A byte beside a request; a timer event beside a request; a request refused; a request granted. -/
theorem witness_CycleOrder :
    (State.reset.Inv ∧ State.reset.started = true ∧ askM0.plwEn = false ∧ askM0.rst = false ∧ askM0.sndReq = true
      ∧ State.reset.portMessage askM0 = some m0 ∧ m0.wf State.reset.cmdBytes = true
      ∧ (cycled { askM0 with sndReq := false } .reset).blk.txLock = false)
    ∧ (cycled { askM0 with sndReq := false, rxValid := true } .reset).blk.txLock = true
    ∧ ((after (rxs f0)).Inv ∧ (after (rxs f0)).started = true ∧ (after (rxs f0)).blk.timerArmed = true
      ∧ (after (rxs f0)).blk.txState ≠ .sending)
    ∧ (State.reset.portMessage { askM0 with sndMode := 0x05 } = none) := by
  repeat' apply And.intro
  all_goals decide

/-- A request of `m0` with one payload byte, and the byte at `a` staged in the same cycle. -/
def stageAndAsk (a : Byte) : PortIn := { askM0 with sndSize := 1, plwEn := true, plwAddr := a, plwData := 0x5A }

/-- A write while busy, one at address 255, one at 254; and one beside a request whose message does not reach it. -/
theorem witness_StagingWrite :
    (after (sending 0)).sndBusy = true ∧ State.reset.started = true ∧ State.reset.sndBusy = false
    ∧ { idlePorts with plwAddr := 254 }.plwAddr ≠ 255 ∧ { idlePorts with plwAddr := 255 }.plwAddr = 255
    ∧ State.reset.stagingWrites (stageAndAsk 1) = true ∧ State.reset.stagingTie (stageAndAsk 1) = false := by
  repeat' apply And.intro
  all_goals decide

/-- A tie with the lock free at the end of its cycle, whose two readings are well-formed; one with a byte of the same cycle,
which leaves the lock set; and one whose mode is none. -/
theorem witness_StagingTieSendsEitherReading :
    (State.reset.Inv ∧ State.reset.started = true ∧ (stageAndAsk 0).rst = false
      ∧ State.reset.stagingTie (stageAndAsk 0) = true
      ∧ ((State.reset.stage (stageAndAsk 0)).portMessage (stageAndAsk 0)).map (·.payload) = some [0x5A]
      ∧ ((State.reset.portMessage (stageAndAsk 0)).all (fun m => m.wf State.reset.cmdBytes)) = true)
    ∧ State.reset.stagingTie { stageAndAsk 0 with rxValid := true } = true
    ∧ (State.reset.stagingTie { stageAndAsk 0 with sndMode := 0x05 } = true
      ∧ State.reset.portMessage { stageAndAsk 0 with sndMode := 0x05 } = none) := by
  repeat' apply And.intro
  all_goals decide

theorem witness_SendPulses :
    (State.reset.Inv ∧ clockCycle askM0 .reset = .next (cycled askM0 .reset))
    ∧ ((after (inGap)).Inv
      ∧ clockCycle { idlePorts with tmrFired := true } (after (inGap))
          = .next (cycled { idlePorts with tmrFired := true } (after (inGap)))) := by
  repeat' apply And.intro
  all_goals first | decide | exact eq_nextOr _ (by decide)

/-- A byte that completes a frame, a timer event that flushes one, a turnaround, and `rst`. -/
theorem witness_TimerAndFramePulses :
    ((after (rxs (f0.take 6))).Inv
      ∧ clockCycle { idlePorts with rxValid := true } (after (rxs (f0.take 6)))
          = .next (cycled { idlePorts with rxValid := true } (after (rxs (f0.take 6))))
      ∧ (outputs 0 (cycled { idlePorts with rxValid := true } (after (rxs (f0.take 6))))).rxfValid = true)
    ∧ ((after (rxs (f0.take 6))).Inv
      ∧ clockCycle { idlePorts with tmrFired := true } (after (rxs (f0.take 6)))
          = .next (cycled { idlePorts with tmrFired := true } (after (rxs (f0.take 6))))
      ∧ (outputs 0 (cycled { idlePorts with tmrFired := true } (after (rxs (f0.take 6))))).flush = true
      ∧ (outputs 0 (cycled { idlePorts with tmrFired := true } (after (rxs (f0.take 6))))).rxfValid = false)
    ∧ ((after (sending 7)).Inv ∧ clockCycle idlePorts (after (sending 7)) = .next (cycled idlePorts (after (sending 7)))
      ∧ (outputs 0 (cycled idlePorts (after (sending 7)))).flush = false)
    ∧ (clockCycle { idlePorts with rst := true } .reset
        = .next (cycled { idlePorts with rst := true } .reset)) := by
  repeat' apply And.intro
  all_goals first | decide | exact eq_nextOr _ (by decide)

/-- A good frame and a bad one; and an operation after the good one. -/
theorem witness_SurfacedFrameReadable :
    ((after (rxs (f0.take 6))).Inv
      ∧ exec (.rxb 0x00) (after (rxs (f0.take 6))) = .next (result (.rxb 0x00) (after (rxs (f0.take 6))))
      ∧ .rxdone f0 ∈ (result (.rxb 0x00) (after (rxs (f0.take 6)))).actions
      ∧ exec .tmo (result (.rxb 0x00) (after (rxs (f0.take 6))))
          = .next (result .tmo (result (.rxb 0x00) (after (rxs (f0.take 6))))))
    ∧ ((after (rxs [0x04, 0x00, 0x00, 0x00, 0x00, 0x09])).Inv
      ∧ .rxerr [0x04, 0x00, 0x00, 0x00, 0x00, 0x09, 0x00]
          ∈ (result (.rxb 0x00) (after (rxs [0x04, 0x00, 0x00, 0x00, 0x00, 0x09]))).actions) := by
  repeat' apply And.intro
  all_goals first | decide | exact eq_nextOr _ (by decide)

/-- `m0` fed with an ignored `TMO` before it and a held send among its bytes. -/
def fedM0 : List Instr := .tmo :: .rxb 0x00 :: .snd m1 :: rxs (f0.drop 1)

theorem witness_IncrementalEquivalence :
    State.reset.Inv ∧ State.reset.blk.faState = .idle ∧ m0.wf State.reset.cmdBytes = true ∧ .rst ∉ fedM0
    ∧ performAll fedM0 .reset = .next (after fedM0) ∧ TimeoutsIgnored fedM0 (after fedM0).outcomes
    ∧ rxOperands fedM0 = serialize State.reset.cmdBytes m0
    ∧ (performAll (fedM0.take 8) .reset = .next (after (fedM0.take 8))
      ∧ rxOperands (fedM0.take 8) <+: serialize State.reset.cmdBytes m0
      ∧ rxOperands (fedM0.take 8) ≠ serialize State.reset.cmdBytes m0) := by
  repeat' apply And.intro
  all_goals first | decide | exact eq_nextOr _ (by decide)

theorem witness_TimeoutRecovery :
    State.reset.Quiescent ∧ State.reset.started = true ∧ m0.wf State.reset.cmdBytes = true
    ∧ m1.wf State.reset.cmdBytes = true ∧ f1.take 8 <+: serialize State.reset.cmdBytes m1
    ∧ f1.take 8 ≠ serialize State.reset.cmdBytes m1 ∧ f1.take 8 ≠ [] := by
  repeat' apply And.intro
  all_goals decide

theorem witness_WholeLocalSend :
    State.reset.Quiescent ∧ State.reset.started = true ∧ m1.wf State.reset.cmdBytes = true := by
  repeat' apply And.intro
  all_goals decide

/-- A send of `m0` of which one byte is accepted and heard, and a second request meanwhile. -/
def midSend : List Instr := [Instr.snd m0, Instr.txb, Instr.rxb 0x00, Instr.snd m1]

def cutShort : List Instr := midSend ++ [Instr.rst]

/-- In mid-send, and after the line has been turned back. -/
theorem witness_SentBytesAreTheFrame :
    State.reset.Inv ∧ State.reset.blk.txLock = false ∧ m0.wf State.reset.cmdBytes = true
    ∧ .rst ∉ midSend.tail
    ∧ performAll midSend .reset = .next (after midSend)
    ∧ .snddone ∉ (after midSend).actions
    ∧ performAll (inGap) .reset = .next (after (inGap))
    ∧ .snddone ∉ (after (inGap)).actions
    ∧ .dir .receive ∈ (after (inGap)).actions
    ∧ performAll cutShort .reset
        = .next (after cutShort) := by
  repeat' apply And.intro
  all_goals first | decide | exact eq_nextOr _ (by decide)

theorem witness_SilentLineDrains :
    (after (sending 3)).Inv ∧ (after (sending 3)).started = true ∧ (after (sending 3)).blk.txLock = true := by
  repeat' apply And.intro
  all_goals decide

/-- One stray byte, its timeout, and then nothing but ignored timer events. -/
def strayRun : Nat → State
  | 0 => after [.rxb 0x55]
  | 1 => result .tmo (after [.rxb 0x55])
  | _ => result .tmo (result .tmo (after [.rxb 0x55]))

theorem witness_SilentLineFreesTheLock :
    (strayRun 0).Inv ∧ (strayRun 0).started = true ∧ IsRun (fun _ => .tmo) strayRun
    ∧ TimerFair (fun _ => .tmo) strayRun ∧ SinkFair (fun _ => .tmo) strayRun ∧ TurnFair (fun _ => .tmo) strayRun
    ∧ LineFallsSilent (fun _ => .tmo) := by
  have noSink : ∀ n, (strayRun n).txEnabled = false ∧ (strayRun n).trnEnabled = false := fun n =>
    match n with
    | 0 => by decide
    | 1 => by decide
    | _ + 2 => ⟨by rfl, by rfl⟩
  refine ⟨by decide, by decide, fun n => ?_, fun n _ => ⟨n, Nat.le_refl n, .inl rfl⟩, fun n h => ?_, fun n h => ?_,
    0, by simp⟩
  · match n with
    | 0 => rfl
    | 1 => rfl
    | _ + 2 => rfl
  · have := h n (Nat.le_refl n); simp [noSink] at this
  · have := h n (Nat.le_refl n); simp [noSink] at this

/-- One stray byte, a send of `m0` that it holds, the timeout, and the send again, to the turnaround. -/
def patientScript : List Instr :=
  [Instr.rxb 0x55, Instr.snd m0, Instr.tmo, Instr.snd m0] ++ List.replicate 7 Instr.txb ++ [Instr.trn]

/-- After the script nothing but timer events: the first ends the send, the others are ignored. -/
def patientOps (n : Nat) : Instr := patientScript.getD n .tmo

def patientRun : Nat → State
  | 0 => .reset
  | n + 1 => nextOr .reset (exec (patientOps n) (patientRun n))

/-- The operand of a `SND`. -/
def sendOperand? : Instr → Option Message
  | .snd m => some m
  | .rst => none
  | .rxb _ => none
  | .tmo => none
  | .txb => none
  | .trn => none

/-- The Host's send of `m0` waits from the start until it is performed. -/
def patientWants (n : Nat) : Option Message := if n < 4 then some m0 else none

theorem patientOps_after (n : Nat) : patientOps (n + 12) = .tmo := rfl

/-- A timer event that is ignored, once more. -/
theorem exec_tmo_rests {s : State} (hs : s.started = true) (ha : s.blk.timerArmed = false) (h1 : s.actions = [])
    (h2 : s.outcomes = [.ignored]) : exec .tmo s = .next s :=
  execTmo_next.mpr ⟨hs, by cases s; simp_all [State.attempt]⟩

theorem patientRun_14_rests : exec .tmo (patientRun 14) = .next (patientRun 14) :=
  exec_tmo_rests (by decide) (by decide) (by decide) (by decide)

/-- From its fourteenth state on the run stands still. -/
theorem patientRun_rests (n : Nat) : patientRun (n + 14) = patientRun 14 := by
  induction n with
  | zero => rfl
  | succ n ih =>
    have step : patientRun (n + 1 + 14) = nextOr .reset (exec (patientOps (n + 2 + 12)) (patientRun (n + 14))) := rfl
    rw [step, patientOps_after, ih, patientRun_14_rests, nextOr]

theorem patientRun_isRun : IsRun patientOps patientRun := by
  intro n
  have start : ∀ n < 14, goesOn (exec (patientOps n) (patientRun n)) = true := by decide
  refine eq_nextOr _ ?_
  rcases Nat.lt_or_ge n 14 with h | h
  · exact start n h
  · obtain ⟨k, rfl⟩ := Nat.exists_eq_add_of_le' h
    rw [patientRun_rests, show patientOps (k + 14) = .tmo from rfl, patientRun_14_rests, goesOn]

/-- One patient Host: held once, then performed. -/
theorem patientHost : HostRequests patientOps patientRun patientWants ∧ HostFair patientOps patientRun patientWants := by
  have wanted : ∀ n m, patientWants n = some m → n < 4 ∧ m = m0 := by
    intro n m h
    unfold patientWants at h
    split at h
    · exact ⟨‹_›, by injection h with h; exact h.symm⟩
    · simp at h
  refine ⟨⟨fun n m h => ?_, fun n m h => ?_⟩, fun n m h => ?_, fun n m h => ?_⟩
  · obtain ⟨hn, rfl⟩ := wanted n m h
    exact (by decide : ∀ n < 4, m0.wf (patientRun n).cmdBytes = true) n hn
  · rcases Nat.lt_or_ge n 12 with hn | hn
    · have asked : ∀ n < 12, sendOperand? (patientOps n) = none
          ∨ sendOperand? (patientOps n) = patientWants n := by decide
      simpa [h, sendOperand?, eq_comm] using asked n hn
    · obtain ⟨k, rfl⟩ := Nat.exists_eq_add_of_le' hn
      rw [patientOps_after] at h
      simp at h
  · obtain ⟨hn, rfl⟩ := wanted n m h
    exact (by decide : ∀ n < 4, SendsAt patientOps patientRun n m0 ∨ patientWants (n + 1) = some m0) n hn
  · have := (wanted _ _ (h (n + 4) (by omega)).1).1
    omega

theorem witness_RequestedSendsReachTheirEnd :
    (patientRun 0).Inv ∧ (patientRun 0).started = true ∧ IsRun patientOps patientRun
    ∧ TimerFair patientOps patientRun ∧ SinkFair patientOps patientRun ∧ TurnFair patientOps patientRun
    ∧ HostRequests patientOps patientRun patientWants ∧ HostFair patientOps patientRun patientWants
    ∧ LineFallsSilent patientOps ∧ patientWants 0 = some m0 := by
  have rests : (patientRun 14).txEnabled = false ∧ (patientRun 14).trnEnabled = false := by decide
  refine ⟨by decide, by decide, patientRun_isRun, fun n _ => ⟨n + 12, by omega, .inl (patientOps_after n)⟩,
    fun n h => ?_, fun n h => ?_, patientHost.1, patientHost.2, ⟨12, fun m hm b => ?_⟩, rfl⟩
  · have := h (n + 14) (by omega)
    rw [patientRun_rests, rests.1] at this
    simp at this
  · have := h (n + 14) (by omega)
    rw [patientRun_rests, rests.2] at this
    simp at this
  · obtain ⟨k, rfl⟩ := Nat.exists_eq_add_of_le' hm
    rw [patientOps_after]
    simp

theorem witness_StrayByteCostsOneTimeout :
    State.reset.Quiescent ∧ State.reset.started = true ∧ m1.wf State.reset.cmdBytes = true := by
  repeat' apply And.intro
  all_goals decide

theorem witness_ByteAtTheDeadlineIsInTime :
    0 < 10 ∧ Timed.reset.state.Inv ∧ Timed.reset.state.started = true
    ∧ (∀ f, Timed.reset.firedAt = some f → f ≤ Timed.reset.now)
    ∧ Timed.reset.act 10 5 (.rxb 1) = some ⟨result (.rxb 1) .reset, 5, some 15, none⟩ :=
  ⟨by decide, by decide, rfl, by simp [Timed.reset], rfl⟩

/-- Two nodes: the first in mid-send. -/
def twoNodes : Bus := [⟨after (sending 3), false, []⟩, ⟨.reset, false, []⟩]

theorem witness_LineDeliversInOrder :
    twoNodes[0]? = some ⟨after (sending 3), false, []⟩
    ∧ Bus.act 0 .txb twoNodes
        = some [⟨result .txb (after (sending 3)), false, []⟩, ⟨.reset, false, [0x07]⟩]
    ∧ 1 ≠ 0 ∧ twoNodes[1]? = some ⟨.reset, false, []⟩ := ⟨rfl, rfl, by decide, rfl⟩

theorem witness_FrameCrossesTheBus :
    State.reset.Quiescent ∧ State.reset.started = true ∧ State.reset.cmdBytes = State.reset.cmdBytes
    ∧ m1.wf State.reset.cmdBytes = true := by
  repeat' apply And.intro
  all_goals decide

end Sys2Proof.Tests
end

section
/-! PROOF. The invariant in three parts: the receiving side, the transmitting side, and the flags that tie them
together. An operation acts on one or two of the parts, and the others are carried over as they are. -/

namespace Sys2Proof.Machine

/-! ### The two shapes as cases -/

/-- R37 read as the three resting states of the assembler. -/
theorem State.assemblerShape_iff {s : State} :
    s.AssemblerShape ↔
      (s.blk.faState = .idle ∧ s.blk.rxCnt = 0 ∧ s.blk.payLen = 0)
      ∨ (s.blk.faState = .headerPartial ∧ 0 < s.blk.rxCnt.toNat ∧ s.blk.rxCnt.toNat < s.headerSize
          ∧ s.blk.payLen = 0)
      ∨ (s.blk.faState = .payloadPartial ∧ s.headerSize ≤ s.blk.rxCnt.toNat
          ∧ s.blk.rxCnt.toNat < s.headerSize + s.blk.payLen.toNat ∧ s.blk.payLen = s.headerPayLen) := by
  have hH : 7 ≤ s.headerSize := s.cmdBytes.headerSize_bounds.1
  have hcnt : s.blk.rxCnt = 0 ↔ s.blk.rxCnt.toNat = 0 := by
    rw [← BitVec.toNat_inj]; rfl
  have hpay : s.blk.payLen = 0 ↔ s.blk.payLen.toNat = 0 := by
    rw [← BitVec.toNat_inj]; rfl
  simp only [State.AssemblerShape, hcnt, hpay]
  by_cases hread : s.blk.payLen = s.headerPayLen <;> cases s.blk.faState <;> simp [hread] <;> omega

/-- R39 read as the three phases of the local send. -/
theorem State.transmitShape_iff {s : State} :
    s.TransmitShape ↔
      (s.blk.txState = .txIdle ∧ s.blk.dir = .receive ∧ s.blk.txLen = 0 ∧ s.blk.txIdx = 0)
      ∨ ((s.blk.txState = .sending ∧ s.blk.dir = .transmit
            ∨ s.blk.txState = .gap ∧ s.blk.dir = .receive ∧ s.blk.txIdx = s.blk.txLen)
          ∧ s.blk.txLen.toNat = s.headerSize + (s.byte .txb (s.headerSize - 1)).toNat
          ∧ s.blk.txIdx.toNat ≤ s.blk.txLen.toNat ∧ (s.byte .txb 0).toNat ≤ 3) := by
  have hbuf : s.bufSize = s.headerSize + 255 := rfl
  have hlen := (s.byte .txb (s.headerSize - 1)).isLt
  simp only [State.TransmitShape]
  by_cases hsent : s.blk.txIdx = s.blk.txLen <;> cases s.blk.txState <;> cases s.blk.dir <;> simp [hsent] <;> omega

/-- The line is turned to Transmit for a send pushing bytes alone (R39). -/
theorem State.TransmitShape.dir_receive {s : State} (h : s.TransmitShape) (hts : s.blk.txState ≠ .sending) :
    s.blk.dir = .receive := by
  obtain ⟨hline, -⟩ := h
  cases hdir : s.blk.dir with
  | receive => rfl
  | transmit => exact absurd (hline.mp hdir) hts

/-- What R39 leaves where no send is in progress. -/
theorem State.TransmitShape.of_txIdle {s : State} (h : s.TransmitShape) (hts : s.blk.txState = .txIdle) :
    s.blk.dir = .receive ∧ s.blk.txLen = 0 ∧ s.blk.txIdx = 0 := by
  have hdir := h.dir_receive (by simp [hts])
  obtain ⟨-, -, -, hidle⟩ := h
  exact ⟨hdir, hidle hts⟩

/-! ### The parts -/

/-- The receiving side: the assembler's shape (R37) and its buffer. -/
structure State.RxInv (s : State) : Prop where
  shape : s.AssemblerShape
  canonical : Mem.wf s.blk.buf = true
  inside : Mem.below s.bufSize s.blk.buf = true
  written : ∀ a < s.blk.rxCnt.toNat, (Mem.find a s.blk.buf).isSome = true

/-- The transmitting side: the shape of the send (R39), its buffer, and what the line has seen of it. -/
structure State.TxInv (s : State) : Prop where
  shape : s.TransmitShape
  canonical : Mem.wf s.blk.txb = true
  inside : Mem.below s.bufSize s.blk.txb = true
  written : ∀ a < s.blk.txLen.toNat, (Mem.find a s.blk.txb).isSome = true
  driver : s.env.driver = s.blk.dir
  sent : s.blk.txState ≠ .txIdle → s.env.sent = s.bytes .txb 0 s.blk.txIdx.toNat

/-- The lock and the timer (R38, R40), and the timer's own record of itself. -/
structure State.FlagInv (s : State) : Prop where
  covers : s.LockCovers
  releasable : s.LockReleasable
  timer : s.env.timerRunning = s.blk.timerArmed

theorem State.inv_iff {s : State} : s.Inv ↔ s.RxInv ∧ s.TxInv ∧ s.FlagInv := by
  constructor
  · rintro ⟨hrx, hcov, htx, hrel, ⟨hbw, hbb, htw, htb⟩, ⟨hbl, htl⟩, htim, hdrv, hsent⟩
    exact ⟨⟨hrx, hbw, hbb, hbl⟩, ⟨htx, htw, htb, htl, hdrv, hsent⟩, hcov, hrel, htim⟩
  · rintro ⟨⟨hrx, hbw, hbb, hbl⟩, ⟨htx, htw, htb, htl, hdrv, hsent⟩, hcov, hrel, htim⟩
    exact ⟨hrx, hcov, htx, hrel, ⟨hbw, hbb, htw, htb⟩, ⟨hbl, htl⟩, htim, hdrv, hsent⟩

/-! ### What a part depends on -/

/-- What the receiving side consists of. -/
def State.rxView (s : State) : CmdBytes × Nat × FaState × Count × Byte × Mem :=
  (s.cmdBytes, s.resetGen, s.blk.faState, s.blk.rxCnt, s.blk.payLen, s.blk.buf)

/-- What the transmitting side consists of. -/
def State.txView (s : State) : CmdBytes × Nat × Dir × TxState × Mem × Count × Count × Dir × List Byte :=
  (s.cmdBytes, s.resetGen, s.blk.dir, s.blk.txState, s.blk.txb, s.blk.txLen, s.blk.txIdx, s.env.driver, s.env.sent)

theorem State.RxInv.carry {s t : State} (h : s.RxInv) (hv : t.rxView = s.rxView) : t.RxInv := by
  cases s with | mk _ _ sblk => cases t with | mk _ _ tblk =>
  cases sblk; cases tblk
  simp only [State.rxView, Prod.mk.injEq] at hv
  obtain ⟨rfl, rfl, rfl, rfl, rfl, rfl⟩ := hv
  exact ⟨h.shape, h.canonical, h.inside, h.written⟩

theorem State.TxInv.carry {s t : State} (h : s.TxInv) (hv : t.txView = s.txView) : t.TxInv := by
  cases s with | mk _ _ sblk _ senv => cases t with | mk _ _ tblk _ tenv =>
  cases sblk; cases tblk; cases senv; cases tenv
  simp only [State.txView, Prod.mk.injEq] at hv
  obtain ⟨rfl, rfl, rfl, rfl, rfl, rfl, rfl, rfl, rfl⟩ := hv
  exact ⟨h.shape, h.canonical, h.inside, h.written, h.driver, h.sent⟩

/-! ### How a part is met at rest -/

/-- An Idle assembler has no live byte. -/
theorem State.RxInv.of_idle {s : State} (hfa : s.blk.faState = .idle) (hcnt : s.blk.rxCnt = 0)
    (hpay : s.blk.payLen = 0) (hwf : Mem.wf s.blk.buf = true) (hin : Mem.below s.bufSize s.blk.buf = true) :
    s.RxInv where
  shape := State.assemblerShape_iff.mpr (.inl ⟨hfa, hcnt, hpay⟩)
  canonical := hwf
  inside := hin
  written := by simp [hcnt]

/-- Without a send in progress no byte of `txb` is live. -/
theorem State.TxInv.of_idle {s : State} (htx : s.blk.txState = .txIdle) (hdir : s.blk.dir = .receive)
    (hlen : s.blk.txLen = 0) (hidx : s.blk.txIdx = 0) (hwf : Mem.wf s.blk.txb = true)
    (hin : Mem.below s.bufSize s.blk.txb = true) (hdrv : s.env.driver = s.blk.dir) : s.TxInv where
  shape := State.transmitShape_iff.mpr (.inl ⟨htx, hdir, hlen, hidx⟩)
  canonical := hwf
  inside := hin
  written := by simp [hlen]
  driver := hdrv
  sent h := absurd htx h

/-- With the lock held and the timer running the flags agree with every assembler and every send. -/
theorem State.FlagInv.of_armed {s : State} (hlock : s.blk.txLock = true) (harm : s.blk.timerArmed = true)
    (htim : s.env.timerRunning = true) : s.FlagInv := by
  refine ⟨?_, ?_, htim.trans harm.symm⟩ <;> simp [State.LockCovers, State.LockReleasable, hlock, harm]

/-- With the timer at rest the lock is held by a send pushing bytes, or free (R38, R40). -/
theorem State.FlagInv.of_unarmed {s : State} (hfa : s.blk.faState = .idle) (harm : s.blk.timerArmed = false)
    (htim : s.env.timerRunning = false) (hgap : s.blk.txState ≠ .gap)
    (hlock : s.blk.txLock = true ↔ s.blk.txState = .sending) : s.FlagInv := by
  refine ⟨?_, ?_, htim.trans harm.symm⟩
  · simp only [State.LockCovers, hfa, harm, hlock]
    cases htx : s.blk.txState <;> simp_all
  · exact fun h => .inr (hlock.mp h)

/-- A state whose registers are those of R33 and whose collaborators follow them meets the invariant. -/
theorem State.inv_of_reset {s : State} (hblk : s.blk = .reset) (htim : s.env.timerRunning = false)
    (hdrv : s.env.driver = .receive) : s.Inv := by
  rw [State.inv_iff]
  refine ⟨.of_idle ?_ ?_ ?_ ?_ ?_, .of_idle ?_ ?_ ?_ ?_ ?_ ?_ ?_, .of_unarmed ?_ ?_ htim ?_ ?_⟩
  all_goals simp [hblk, hdrv, Block.reset, Mem.wf, Mem.below]

/-- R38, R40: with the lock free nothing is in progress and the timer is not running. -/
theorem State.quiescent_of_lock_free {s : State} (h : s.Inv) (hlock : s.blk.txLock = false) : s.Quiescent := by
  obtain ⟨hrx, ⟨harmed, hassembling, hsending, -⟩, htx, -⟩ := h
  have harm : s.blk.timerArmed = false := by simpa [hlock] using harmed
  have hfa : s.blk.faState = .idle := by simpa [harm] using hassembling
  have hts : s.blk.txState = .txIdle := by simpa [hlock] using hsending
  obtain ⟨-, hcnt, hpay⟩ : s.blk.faState = .idle ∧ s.blk.rxCnt = 0 ∧ s.blk.payLen = 0 := by
    simpa [hfa] using State.assemblerShape_iff.mp hrx
  obtain ⟨hdir, hlen, hidx⟩ := htx.of_txIdle hts
  exact ⟨hfa, hcnt, hpay, hlock, hdir, hts, hlen, hidx, harm⟩

end Sys2Proof.Machine
end

section
/-! PROOF. What `RXB` and `TMO` can do to the state, said once beside the cases of Laws/Exec. -/

namespace Sys2Proof.Machine

/-- Handing a frame over touches the surfaced frames alone (R65, R151). -/
theorem Env.react_frameAction (e : Env) (c : CmdBytes) (F : List Byte) :
    ∃ S, e.react (frameAction c F) = { e with surfaced := S } := by
  unfold frameAction
  split
  · exact ⟨_, rfl⟩
  · exact ⟨_, rfl⟩

/-- `Complete()` changes the assembler's registers, `rxf_len`, the surfaced frames and the actions (R101). -/
theorem complete_frame (s : State) :
    ∃ l S as, complete s = { s with
      blk := { s.blk with faState := .idle, rxCnt := 0, payLen := 0 }
      rxfLen := l, env := { s.env with surfaced := S }, actions := as } := by
  obtain ⟨S, hS⟩ := s.env.react_frameAction s.cmdBytes s.rxFrame
  rw [complete_eq, hS]
  exact ⟨_, _, _, rfl⟩

/-- The tests of `RXB` change what `Complete()` changes at most, and the counter only back to 0 (R100). -/
theorem rxbAdvance_frame (s : State) :
    ∃ fa n p l S as, (n = 0 ∨ n = s.blk.rxCnt) ∧ rxbAdvance s = { s with
      blk := { s.blk with faState := fa, rxCnt := n, payLen := p }
      rxfLen := l, env := { s.env with surfaced := S }, actions := as } := by
  obtain ⟨h, -⟩ | ⟨h, -⟩ | ⟨h, -⟩ | ⟨h, -⟩ := rxbAdvance_cases s
  · obtain ⟨l, S, as, hc⟩ := complete_frame (s.setPayLen 0)
    exact ⟨_, _, _, l, S, as, .inl rfl, h.trans hc⟩
  · exact ⟨_, _, _, _, _, _, .inr rfl, h⟩
  · obtain ⟨l, S, as, hc⟩ := complete_frame s
    exact ⟨_, _, _, l, S, as, .inl rfl, h.trans hc⟩
  · exact ⟨_, _, _, _, _, _, .inr rfl, h⟩

/-- `RXB` stores its byte, sets the lock and starts the timer, and leaves the transmitting side alone (R100). -/
theorem execRxb_frame {s t : State} {b : Byte} (h : execRxb b s = .next t) :
    ∃ fa n p l S as, (n = 0 ∨ n = s.blk.rxCnt + 1) ∧ t = { s with
      blk := { s.blk with
        faState := fa, rxCnt := n, payLen := p, buf := Mem.write s.blk.rxCnt.toNat b s.blk.buf
        txLock := true, timerArmed := true }
      rxfLen := l, env := { s.env with timerRunning := true, surfaced := S }
      actions := as, outcomes := [.performed] } := by
  obtain ⟨-, -, ht⟩ := execRxb_next.mp h
  obtain ⟨fa, n, p, l, S, as, hn, hadv⟩ := rxbAdvance_frame (rxbMid b s)
  have hmid : t = rxbAdvance (rxbMid b s) := ht
  rw [rxbMid_eq] at hn
  refine ⟨fa, n, p, l, S, as, hn, ?_⟩
  rw [hmid, hadv, rxbMid_eq]

/-- The assembler's share of `TMO` (R103). -/
theorem tmoFlush_cases (s : State) :
    (s.blk.faState = .idle ∧ tmoFlush s = s)
    ∨ (s.blk.faState ≠ .idle ∧ tmoFlush s = (s.emit (.flush s.blk.rxCnt)).assemblerIdle) := by
  unfold tmoFlush
  split
  · next h => exact .inl ⟨h, rfl⟩
  · next h => exact .inr ⟨h, rfl⟩

/-- The arbiter's share of `TMO` (R103). -/
theorem tmoRelease_cases (s : State) :
    (s.blk.txState = .sending ∧ tmoRelease s = s)
    ∨ (s.blk.txState = .gap ∧ tmoRelease s = ((s.emit .snddone).setTxLock false).arbiterIdle)
    ∨ (s.blk.txState = .txIdle ∧ tmoRelease s = (s.setTxLock false).arbiterIdle) := by
  unfold tmoRelease
  split
  · next h => exact .inl ⟨h, rfl⟩
  · next h => exact .inr (.inl ⟨h, rfl⟩)
  · next h => exact .inr (.inr ⟨h, rfl⟩)

@[simp] theorem tmoFlush_dir (s : State) : (tmoFlush s).blk.dir = s.blk.dir := by
  obtain ⟨-, h⟩ | ⟨-, h⟩ := tmoFlush_cases s <;> simp [h]

@[simp] theorem tmoFlush_timerArmed (s : State) : (tmoFlush s).blk.timerArmed = s.blk.timerArmed := by
  obtain ⟨-, h⟩ | ⟨-, h⟩ := tmoFlush_cases s <;> simp [h]

@[simp] theorem tmoFlush_txLock (s : State) : (tmoFlush s).blk.txLock = s.blk.txLock := by
  obtain ⟨-, h⟩ | ⟨-, h⟩ := tmoFlush_cases s <;> simp [h]

@[simp] theorem tmoFlush_txState (s : State) : (tmoFlush s).blk.txState = s.blk.txState := by
  obtain ⟨-, h⟩ | ⟨-, h⟩ := tmoFlush_cases s <;> simp [h]

@[simp] theorem tmoFlush_env (s : State) : (tmoFlush s).env = s.env := by
  obtain ⟨-, h⟩ | ⟨-, h⟩ := tmoFlush_cases s <;> simp [h]

@[simp] theorem tmoRelease_dir (s : State) : (tmoRelease s).blk.dir = s.blk.dir := by
  obtain ⟨-, h⟩ | ⟨-, h⟩ | ⟨-, h⟩ := tmoRelease_cases s <;> simp [h]

@[simp] theorem tmoRelease_timerArmed (s : State) : (tmoRelease s).blk.timerArmed = s.blk.timerArmed := by
  obtain ⟨-, h⟩ | ⟨-, h⟩ | ⟨-, h⟩ := tmoRelease_cases s <;> simp [h]

end Sys2Proof.Machine
end

section
/-! PROOF. Every operation keeps the invariant, and so does every sequence of operations, every clock cycle and every
step. -/

namespace Sys2Proof.Machine

/-! ### RST -/

theorem execRst_inv {s t : State} (h : execRst s = .next t) : t.Inv := by
  obtain rfl := execRst_next.mp h
  exact State.inv_of_reset rfl rfl rfl

/-! ### RXB -/

/-- The shape after `RXB` (R100, R104): the byte ends the frame, ends the header, or only counts. -/
theorem rxbAdvance_rxbMid_shape {s : State} {b : Byte} (hs : s.AssemblerShape) (hcnt : s.blk.rxCnt.toNat < s.bufSize) :
    (rxbAdvance (rxbMid b s)).AssemblerShape := by
  have hH : 7 ≤ s.headerSize := s.cmdBytes.headerSize_bounds.1
  have hsize : (rxbMid b s).headerSize = s.headerSize := by rw [rxbMid_eq]; rfl
  have hmid : (rxbMid b s).blk.rxCnt.toNat = s.blk.rxCnt.toNat + 1 := by rw [rxbMid_eq]; exact rxCnt_succ hcnt
  obtain ⟨h, -⟩ | ⟨h, -, hend, hpay⟩ | ⟨h, -⟩ | ⟨h, hnh, hnp⟩ := rxbAdvance_cases (rxbMid b s) <;> rw [h]
  · rw [complete_eq, State.assemblerShape_iff]
    exact .inl ⟨rfl, rfl, rfl⟩
  · have hpos : 0 < (rxbMid b s).headerPayLen.toNat :=
      Nat.pos_of_ne_zero fun h0 => hpay (BitVec.eq_of_toNat_eq h0)
    exact State.assemblerShape_iff.mpr
      (.inr (.inr ⟨rfl, hend.ge, hend.trans_lt (Nat.lt_add_of_pos_right hpos), rfl⟩))
  · rw [complete_eq, State.assemblerShape_iff]
    exact .inl ⟨rfl, rfl, rfl⟩
  · have hpl : (rxbMid b s).blk.payLen = s.blk.payLen := by rw [rxbMid_eq]
    have hfa : (rxbMid b s).blk.faState = if s.blk.faState = .idle then .headerPartial else s.blk.faState := by
      rw [rxbMid_eq]
    rw [hmid, hsize, hfa] at hnh hnp
    rw [hpl] at hnp
    rw [State.assemblerShape_iff, hmid, hsize, hfa, hpl]
    obtain ⟨hf, hc, hp⟩ | ⟨hf, hlo, hhi, hp⟩ | ⟨hf, hlo, hhi, hp⟩ := State.assemblerShape_iff.mp hs
    · simp [hf, hc, hp]
      omega
    · have hne : s.blk.rxCnt.toNat + 1 ≠ s.headerSize := by simpa [hf] using hnh
      simp [hf, hp]
      omega
    · have hne : s.blk.rxCnt.toNat + 1 ≠ s.headerSize + s.blk.payLen.toNat := by simpa [hf] using hnp
      have hread : (rxbMid b s).headerPayLen = s.blk.payLen := by
        rw [State.headerPayLen, hsize, rxbMid_byte, if_neg (by omega), hp, State.headerPayLen]
      simp [hf, hread]
      omega

theorem execRxb_inv {s t : State} {b : Byte} (hs : s.Inv) (h : execRxb b s = .next t) : t.Inv := by
  obtain ⟨-, hcnt, ht⟩ := execRxb_next.mp h
  obtain ⟨hrx, htx, -⟩ := State.inv_iff.mp hs
  have hshape : t.AssemblerShape := ht ▸ rxbAdvance_rxbMid_shape hrx.shape hcnt
  obtain ⟨fa, n, p, l, S, as, hn, rfl⟩ := execRxb_frame h
  refine State.inv_iff.mpr ⟨⟨hshape, Mem.wf_write hrx.canonical, Mem.below_write hrx.inside hcnt, ?_⟩,
    htx.carry rfl, .of_armed rfl rfl rfl⟩
  intro a ha
  obtain rfl | rfl := hn
  · exact absurd ha (Nat.not_lt_zero a)
  · have hle : a < s.blk.rxCnt.toNat + 1 := rxCnt_succ hcnt ▸ ha
    by_cases hnew : a = s.blk.rxCnt.toNat
    · simp [hnew, Mem.find_write_same]
    · simpa [Mem.find_write_other _ _ hnew] using hrx.written a (by omega)

/-! ### TMO -/

/-- The flush leaves the assembler Idle (R103). -/
theorem tmoFlush_rx {s : State} (h : s.RxInv) : (tmoFlush s).RxInv ∧ (tmoFlush s).blk.faState = .idle := by
  obtain ⟨hfa, heq⟩ | ⟨-, heq⟩ := tmoFlush_cases s <;> rw [heq]
  · exact ⟨h, hfa⟩
  · exact ⟨.of_idle rfl rfl rfl h.canonical h.inside, rfl⟩

/-- The flush leaves the transmitting side alone. -/
theorem tmoFlush_tx {s : State} (h : s.TxInv) : (tmoFlush s).TxInv := by
  obtain ⟨-, heq⟩ | ⟨-, heq⟩ := tmoFlush_cases s <;> rw [heq]
  · exact h
  · exact h.carry rfl

/-- With the timer spent and the assembler Idle, the release frees the lock or leaves a send pushing bytes (R103). -/
theorem tmoRelease_inv {s : State} (hrx : s.RxInv) (htx : s.TxInv) (hfa : s.blk.faState = .idle)
    (harm : s.blk.timerArmed = false) (htim : s.env.timerRunning = false)
    (hlock : s.blk.txState ≠ .txIdle → s.blk.txLock = true) : (tmoRelease s).Inv := by
  rw [State.inv_iff]
  obtain ⟨hts, heq⟩ | ⟨hts, heq⟩ | ⟨hts, heq⟩ := tmoRelease_cases s <;> rw [heq]
  · exact ⟨hrx, htx, .of_unarmed hfa harm htim (by simp [hts]) (by simp [hts, hlock])⟩
  all_goals
    have hdir : s.blk.dir = .receive := htx.shape.dir_receive (by simp [hts])
    exact ⟨hrx.carry rfl, .of_idle rfl hdir rfl rfl htx.canonical htx.inside htx.driver,
      .of_unarmed hfa harm htim (by simp) (by simp)⟩

theorem execTmo_inv {s t : State} (hs : s.Inv) (h : execTmo s = .next t) : t.Inv := by
  obtain ⟨hrx, htx, hflag⟩ := State.inv_iff.mp hs
  obtain ⟨-, rfl⟩ := execTmo_next.mp h
  split
  · have hrx' : (s.attempt .performed).timerFired.RxInv := hrx.carry rfl
    have htx' : (s.attempt .performed).timerFired.TxInv := htx.carry rfl
    obtain ⟨hflush, hfa⟩ := tmoFlush_rx hrx'
    obtain ⟨-, -, hsending, -⟩ := hflag.covers
    exact tmoRelease_inv hflush (tmoFlush_tx htx') hfa (by simp) (by simp) (by simpa using hsending)
  · exact hs

/-! ### SND -/

/-- The length latched is the frame's: it fits the register (R121, D23). -/
theorem sndBegin_txLen {s : State} {m : Message} (hm : m.wf s.cmdBytes = true) :
    (sndBegin m s).blk.txLen.toNat = (serialize s.cmdBytes m).length := by
  have hH := s.cmdBytes.headerSize_bounds
  obtain ⟨-, hpay, -⟩ := Message.wf_iff.mp hm
  simp [sndBegin]
  omega

theorem sndBegin_byte (m : Message) (s : State) {k : Nat} (hk : k < (serialize s.cmdBytes m).length) :
    (sndBegin m s).byte .txb k = byteAt (serialize s.cmdBytes m) k := by
  rw [byteAt_eq_getElem hk]
  exact State.latch_byte_inside _ _ hk

/-- The latched frame has the shape of R39, and every byte of it is written. -/
theorem sndBegin_tx {s : State} {m : Message} (hm : m.wf s.cmdBytes = true) (h : s.TxInv) : (sndBegin m s).TxInv := by
  have hH : 7 ≤ s.headerSize := s.cmdBytes.headerSize_bounds.1
  have hsize : s.bufSize = s.headerSize + 255 := rfl
  obtain ⟨hmode, hpay, -⟩ := Message.wf_iff.mp hm
  have hframe : (serialize s.cmdBytes m).length = s.headerSize + m.payload.length := serialize_length _ _
  refine ⟨State.transmitShape_iff.mpr (.inr ⟨.inl ⟨rfl, rfl⟩, ?_, Nat.zero_le _, ?_⟩),
    Mem.wf_writeAll h.canonical, Mem.below_writeAll (n := s.bufSize) h.inside (by omega), ?_, rfl, fun _ => rfl⟩
  · change _ = s.headerSize + ((sndBegin m s).byte .txb (s.headerSize - 1)).toNat
    rw [sndBegin_txLen hm, sndBegin_byte m s (by omega)]
    have hdecl := declaredLength_serialize (c := s.cmdBytes) hpay []
    rw [List.append_nil] at hdecl
    exact hdecl.symm
  · rw [sndBegin_byte m s (by omega), byteAt_serialize_zero]
    exact Mode.code_le_of_onWire hmode
  · intro a ha
    have hfind := Mem.find_writeAll_inside (a := 0) _ s.blk.txb (sndBegin_txLen hm ▸ ha)
    rw [Nat.zero_add] at hfind
    exact Option.isSome_of_eq_some hfind

theorem execSnd_inv {s t : State} {m : Message} (hs : s.Inv) (h : execSnd m s = .next t) : t.Inv := by
  obtain ⟨-, hm, rfl⟩ := execSnd_next.mp h
  split
  · exact hs
  · next hlock =>
    obtain ⟨hfa, -, -, -, -, -, -, -, harm⟩ := State.quiescent_of_lock_free hs (by simpa using hlock)
    obtain ⟨hrx, htx, hflag⟩ := State.inv_iff.mp hs
    exact State.inv_iff.mpr ⟨hrx.carry rfl, sndBegin_tx hm (htx.carry rfl),
      .of_unarmed hfa harm (hflag.timer.trans harm) (by simp [sndBegin]) (by simp [sndBegin])⟩

/-! ### TXB and TRN -/

/-- The accepted byte is the next of the frame (R122). -/
theorem execTxb_inv {s t : State} (hs : s.Inv) (h : execTxb s = .next t) : t.Inv := by
  obtain ⟨hrx, htx, hflag⟩ := State.inv_iff.mp hs
  obtain ⟨-, ht⟩ := execTxb_next.mp h
  split at ht
  · next hen =>
    obtain ⟨hin, rfl⟩ := ht
    obtain ⟨hts, hlt⟩ := State.txEnabled_iff.mp hen
    have hsucc : (s.blk.txIdx + 1).toNat = s.blk.txIdx.toNat + 1 := by bv_omega
    refine State.inv_iff.mpr ⟨hrx.carry rfl,
      ⟨?_, htx.canonical, htx.inside, htx.written, htx.driver, fun _ => ?_⟩,
      hflag.covers, hflag.releasable, hflag.timer⟩
    · obtain ⟨h0, -⟩ | ⟨⟨-, hdir⟩ | ⟨hg, -⟩, hdecl, -, htag⟩ := State.transmitShape_iff.mp htx.shape
      · simp [hts] at h0
      · exact State.transmitShape_iff.mpr (.inr ⟨.inl ⟨hts, hdir⟩, hdecl, hsucc.trans_le hlt, htag⟩)
      · simp [hts] at hg
    · change s.env.sent ++ [s.txByte] = s.bytes .txb 0 (s.blk.txIdx + 1).toNat
      rw [hsucc, State.bytes_succ, htx.sent (by simp [hts]), Nat.zero_add, State.txByte]
  · exact ht ▸ hs

/-- After the last byte the line turns and the Gap begins (R123). -/
theorem execTrn_inv {s t : State} (hs : s.Inv) (h : execTrn s = .next t) : t.Inv := by
  obtain ⟨hrx, htx, hflag⟩ := State.inv_iff.mp hs
  obtain ⟨-, rfl⟩ := execTrn_next.mp h
  split
  · next hen =>
    obtain ⟨hts, hall⟩ := State.trnEnabled_iff.mp hen
    obtain ⟨-, -, hsending, -⟩ := hflag.covers
    refine State.inv_iff.mpr ⟨hrx.carry rfl,
      ⟨?_, htx.canonical, htx.inside, htx.written, rfl, fun _ => htx.sent (by simp [hts])⟩,
      .of_armed (hsending (by simp [hts])) rfl rfl⟩
    obtain ⟨h0, -⟩ | ⟨-, hframe⟩ := State.transmitShape_iff.mp htx.shape
    · simp [hts] at h0
    · exact State.transmitShape_iff.mpr (.inr ⟨.inr ⟨rfl, rfl, hall⟩, hframe⟩)
  · exact hs

/-! ### Every operation, every cycle, every step -/

/-- R37 to R40: every operation keeps the invariant. -/
theorem exec_inv {i : Instr} {s t : State} (hs : s.Inv) (h : exec i s = .next t) : t.Inv := by
  cases i with
  | rst => exact execRst_inv h
  | rxb b => exact execRxb_inv hs h
  | tmo => exact execTmo_inv hs h
  | snd m => exact execSnd_inv hs h
  | txb => exact execTxb_inv hs h
  | trn => exact execTrn_inv hs h

/-- Reports put together are no part of the invariant. -/
theorem State.reportsAfter_inv {t u : State} (h : u.Inv) : (t.reportsAfter u).Inv := h

theorem performAll_inv {ops : List Instr} {s t : State} (hs : s.Inv) (h : performAll ops s = .next t) : t.Inv := by
  induction ops generalizing s t with
  | nil =>
    obtain rfl := performAll_nil.mp h
    exact hs
  | cons i is ih =>
    obtain ⟨u, v, hu, hv, rfl⟩ := performAll_cons.mp h
    exact State.reportsAfter_inv (ih (exec_inv hs hu) hv)

/-- A staging write lands inside `txb` while no send is in progress, so no live byte changes (R87, R193). -/
theorem State.stage_inv {s : State} (p : PortIn) (hs : s.Inv) : (s.stage p).Inv := by
  unfold State.stage
  split
  · next hw =>
    obtain ⟨⟨-, hbusy⟩, haddr⟩ : (p.plwEn = true ∧ s.blk.txState = .txIdle) ∧ p.plwAddr ≠ 255 := by
      simpa [State.stagingWrites, State.sndBusy] using hw
    obtain ⟨hrx, htx, hflag⟩ := State.inv_iff.mp hs
    obtain ⟨hdir, hlen, hidx⟩ := htx.shape.of_txIdle hbusy
    have hin : s.headerSize + p.plwAddr.toNat < s.bufSize := by
      have hsize : s.bufSize = s.headerSize + 255 := rfl
      bv_omega
    exact State.inv_iff.mpr ⟨hrx.carry rfl,
      .of_idle hbusy hdir hlen hidx (Mem.wf_write htx.canonical) (Mem.below_write htx.inside hin) htx.driver,
      hflag.covers, hflag.releasable, hflag.timer⟩
  · exact hs

theorem State.openCycle_inv {s : State} (p : PortIn) (hs : s.Inv) : (s.openCycle p).Inv := State.stage_inv p hs

theorem grantSend_inv {m : Option Message} {s t : State} (hs : s.Inv) (h : grantSend m s = .next t) : t.Inv := by
  obtain ⟨-, rfl⟩ | ⟨-, m', -, u, hu, rfl⟩ := grantSend_next.mp h
  · exact hs
  · exact State.reportsAfter_inv (exec_inv hs hu)

/-- R156: a clock cycle keeps the invariant. -/
theorem clockCycle_inv {p : PortIn} {s t : State} (hs : s.Inv) (h : clockCycle p s = .next t) : t.Inv := by
  rw [clockCycle_next] at h
  split at h
  · exact exec_inv hs h
  · obtain ⟨u, hu, ht⟩ := runCycle_next.mp h.2
    have hinv : u.Inv := performAll_inv (State.openCycle_inv p hs) hu
    split at ht
    · exact grantSend_inv hinv ht
    · exact next_eq_next.mp ht ▸ hinv

/-- A step is a clock cycle taken from the queue, or an operation taken from the trace (R59, R82, R87). -/
theorem step_cases {s t : State} (h : step s = .next t) :
    (s.trace = [] ∧ clockCycle (nextCycle s) { s with cycles := s.cycles.tail } = .next t)
    ∨ ∃ i rest, fetch s = .op i rest ∧ exec i { s with trace := rest } = .next t := by
  unfold step at h
  split at h
  · next hnil => exact .inl ⟨hnil, h⟩
  · unfold traceStep at h
    split at h
    · next i rest hop => exact .inr ⟨i, rest, hop, h⟩
    · simp at h

/-- Every step keeps the invariant: the input still to come is no part of it. -/
theorem step_inv {s t : State} (hs : s.Inv) (h : step s = .next t) : t.Inv := by
  obtain ⟨-, hcycle⟩ | ⟨i, rest, -, hexec⟩ := step_cases h
  · exact clockCycle_inv (s := { s with cycles := s.cycles.tail }) hs hcycle
  · exact exec_inv (s := { s with trace := rest }) hs hexec

/-! ### The obligations -/

/-- Settles O20: every operation keeps the invariant, and a free lock leaves nothing in progress. -/
theorem invariantKeptByEveryOperation : Obligations.InvariantKeptByEveryOperation :=
  fun _ _ _ hs h => ⟨exec_inv hs h, State.quiescent_of_lock_free (exec_inv hs h)⟩

/-- Settles O21: so does every operation of the trace and every clock cycle. -/
theorem stepKeepsInvariant : Obligations.StepKeepsInvariant := fun _ _ hs h => step_inv hs h

/-- Settles O2: the state after reset has the registers of R33. -/
theorem resetStateMeetsInvariant : Obligations.ResetStateMeetsInvariant :=
  ⟨by decide, State.inv_of_reset rfl rfl rfl, rfl⟩

/-- Settles O3: `RST` sets every register as R33 lists it. -/
theorem rstEstablishesInvariant : Obligations.RstEstablishesInvariant := fun s t h => by
  refine ⟨execRst_inv h, ?_⟩
  obtain rfl := execRst_next.mp h
  rfl

/-- Settles O13: with the lock set `SND` is held, and a free lock means Quiescent. -/
theorem sendBeginsOnlyWhenQuiescent : Obligations.SendBeginsOnlyWhenQuiescent := fun s t m hs h hperf => by
  obtain ⟨-, -, rfl⟩ := execSnd_next.mp h
  cases hlock : s.blk.txLock with
  | true => simp [hlock] at hperf
  | false => exact State.quiescent_of_lock_free hs hlock

/-- Settles O18, operation by operation. -/
theorem directionAndTimerWrites : Obligations.DirectionAndTimerWrites := fun i s t h => by
  cases i with
  | rst =>
    obtain rfl := execRst_next.mp h
    exact ⟨rfl, rfl⟩
  | rxb b =>
    obtain ⟨_, _, _, _, _, _, -, rfl⟩ := execRxb_frame h
    exact ⟨rfl, rfl⟩
  | tmo =>
    obtain ⟨-, rfl⟩ := execTmo_next.mp h
    cases harm : s.blk.timerArmed <;> simp [harm]
  | snd m =>
    obtain ⟨-, -, rfl⟩ := execSnd_next.mp h
    cases hlock : s.blk.txLock <;> simp [sndBegin]
  | txb =>
    obtain ⟨-, ht⟩ := execTxb_next.mp h
    split at ht
    · obtain ⟨-, rfl⟩ := ht
      exact ⟨rfl, rfl⟩
    · obtain rfl := ht
      exact ⟨rfl, rfl⟩
  | trn =>
    obtain ⟨-, rfl⟩ := execTrn_next.mp h
    cases hen : s.trnEnabled <;> simp

end Sys2Proof.Machine
end

section
/-! PROOF. No operation reads a stale or unspecified byte. Two states that differ only in such bytes are one state over
two contents of its buffers, and every operation treats the two alike. -/

namespace Sys2Proof.Machine

/-! ### One state over two contents -/

/-- The same registers over other buffer contents. -/
def State.withContents (buf txb : Mem) (gen : Nat) (s : State) : State :=
  { s with blk := { s.blk with buf := buf, txb := txb }, resetGen := gen }

/-- States that agree in all but stale bytes differ in their buffers' contents alone. -/
theorem State.SameButStale.exists_withContents {s t : State} (h : s.SameButStale t) :
    ∃ buf txb gen, t = s.withContents buf txb gen := by
  obtain ⟨hreg, -, -⟩ := h
  refine ⟨t.blk.buf, t.blk.txb, t.resetGen, ?_⟩
  cases s with | mk _ _ sblk => cases t with | mk _ _ tblk =>
  cases sblk; cases tblk
  simp only [Block.registers, State.mk.injEq, Block.mk.injEq] at hreg
  simp [State.withContents, hreg]

/-- Two outcomes that agree: the same stop, or next states that differ at most in bytes no rule reads. -/
inductive SameOutcome : Outcome → Outcome → Prop where
  | next {s t : State} (h : s.SameButStale t) : SameOutcome (.next s) (.next t)
  | fault (f : Fault) : SameOutcome (.fault f) (.fault f)
  | refused (r : Refusal) : SameOutcome (.refused r) (.refused r)

/-- Two choices by the same guard are related when their branches are. -/
theorem rel_ite {α : Type} {R : α → α → Prop} {c d : Prop} [Decidable c] [Decidable d] {x y x' y' : α}
    (hcd : c ↔ d) (hpos : c → R x x') (hneg : ¬ c → R y y') : R (if c then x else y) (if d then x' else y') := by
  by_cases hc : c
  · rw [if_pos hc, if_pos (hcd.mp hc)]; exact hpos hc
  · rw [if_neg hc, if_neg (mt hcd.mpr hc)]; exact hneg hc

/-- The reports are set alike. -/
theorem State.SameButStale.attempt {s t : State} (h : s.SameButStale t) (w : OutcomeWord) :
    (s.attempt w).SameButStale (t.attempt w) := by
  obtain ⟨buf, txb, gen, rfl⟩ := h.exists_withContents
  obtain ⟨-, hbuf, htxb⟩ := h
  exact ⟨rfl, hbuf, htxb⟩

theorem SameOutcome.onceStarted {s t : State} {f : State → Outcome} (h : s.SameButStale t)
    (hf : SameOutcome (f s) (f t)) : SameOutcome (s.onceStarted f) (t.onceStarted f) := by
  obtain ⟨buf, txb, gen, rfl⟩ := h.exists_withContents
  exact rel_ite Iff.rfl (fun _ => hf) (fun _ => .refused _)

/-! ### RXB -/

/-- The stored byte is new in both states; the bytes before it were live. -/
theorem State.SameButStale.rxbMid {s t : State} (h : s.SameButStale t) (b : Byte)
    (hcnt : s.blk.rxCnt.toNat < s.bufSize) : (rxbMid b s).SameButStale (rxbMid b t) := by
  obtain ⟨buf, txb, gen, rfl⟩ := h.exists_withContents
  obtain ⟨-, hbuf, htxb⟩ := h
  refine ⟨by simp only [rxbMid_eq]; rfl, fun a ha => ?_, fun a ha => ?_⟩
  · have hle : a < s.blk.rxCnt.toNat + 1 := by
      rw [← rxCnt_succ hcnt]
      simpa only [rxbMid_eq] using ha
    rw [rxbMid_byte, rxbMid_byte]
    exact rel_ite (R := Eq) Iff.rfl (fun _ => rfl) (fun hne => hbuf a (by omega))
  · simp only [rxbMid_eq] at ha ⊢
    exact htxb a ha

/-- `Complete()` reads the received frame, all of it live (R101). -/
theorem State.SameButStale.complete {s t : State} (h : s.SameButStale t) :
    (complete s).SameButStale (complete t) := by
  obtain ⟨buf, txb, gen, rfl⟩ := h.exists_withContents
  obtain ⟨-, hbuf, htxb⟩ := h
  have hframe : (s.withContents buf txb gen).rxFrame = s.rxFrame :=
    (State.bytes_congr fun a _ ha => hbuf a (Nat.zero_add s.blk.rxCnt.toNat ▸ ha)).symm
  rw [complete_eq, complete_eq, hframe]
  exact ⟨rfl, fun a ha => absurd ha (Nat.not_lt_zero a), htxb⟩

/-- The `payload_size` byte is read when the header is complete, so that it is live (R100). -/
theorem State.SameButStale.rxbAdvance {s t : State} (h : s.SameButStale t) :
    (rxbAdvance s).SameButStale (rxbAdvance t) := by
  have hcomplete := h.complete
  obtain ⟨buf, txb, gen, rfl⟩ := h.exists_withContents
  have ⟨_, hbuf, htxb⟩ := h
  refine rel_ite (R := State.SameButStale) Iff.rfl (fun hdone => ?_) fun _ =>
    rel_ite (R := State.SameButStale) Iff.rfl (fun _ => hcomplete) fun _ => h
  obtain ⟨-, hend⟩ := State.headerDone_iff.mp hdone
  have hH : 7 ≤ s.headerSize := s.cmdBytes.headerSize_bounds.1
  have hread : (s.withContents buf txb gen).headerPayLen = s.headerPayLen :=
    (hbuf (s.headerSize - 1) (by omega)).symm
  have hset : (s.setPayLen s.headerPayLen).SameButStale ((s.withContents buf txb gen).setPayLen s.headerPayLen) :=
    ⟨rfl, hbuf, htxb⟩
  rw [rxbHeaderDone, rxbHeaderDone, hread]
  exact rel_ite (R := State.SameButStale) Iff.rfl (fun _ => hset.complete) fun _ => ⟨rfl, hbuf, htxb⟩

theorem execRxb_sameOutcome {s t : State} (h : s.SameButStale t) (b : Byte) :
    SameOutcome (execRxb b s) (execRxb b t) := by
  refine .onceStarted h ?_
  have hmid := h.rxbMid b
  obtain ⟨buf, txb, gen, rfl⟩ := h.exists_withContents
  exact rel_ite Iff.rfl (fun hcnt => .next (hmid hcnt).rxbAdvance) fun _ => .fault _

/-! ### TMO -/

theorem State.SameButStale.tmoFlush {s t : State} (h : s.SameButStale t) :
    (tmoFlush s).SameButStale (tmoFlush t) := by
  obtain ⟨buf, txb, gen, rfl⟩ := h.exists_withContents
  have ⟨_, _, htxb⟩ := h
  exact rel_ite (R := State.SameButStale) Iff.rfl (fun _ => h) fun _ =>
    ⟨rfl, fun a ha => absurd ha (Nat.not_lt_zero a), htxb⟩

theorem State.SameButStale.tmoRelease {s t : State} (h : s.SameButStale t) :
    (tmoRelease s).SameButStale (tmoRelease t) := by
  obtain ⟨buf, txb, gen, rfl⟩ := h.exists_withContents
  have ⟨_, hbuf, _⟩ := h
  have hts : (s.withContents buf txb gen).blk.txState = s.blk.txState := rfl
  unfold Machine.tmoRelease
  rw [hts]
  cases s.blk.txState with
  | sending => exact h
  | gap => exact ⟨rfl, hbuf, fun a ha => absurd ha (Nat.not_lt_zero a)⟩
  | txIdle => exact ⟨rfl, hbuf, fun a ha => absurd ha (Nat.not_lt_zero a)⟩

theorem execTmo_sameOutcome {s t : State} (h : s.SameButStale t) : SameOutcome (execTmo s) (execTmo t) := by
  refine .onceStarted h ?_
  have hignored := h.attempt .ignored
  obtain ⟨buf, txb, gen, rfl⟩ := h.exists_withContents
  obtain ⟨-, hbuf, htxb⟩ := h
  have hfired : (s.attempt .performed).timerFired.SameButStale
      ((s.withContents buf txb gen).attempt .performed).timerFired := ⟨rfl, hbuf, htxb⟩
  exact rel_ite Iff.rfl (fun _ => .next hfired.tmoFlush.tmoRelease) fun _ => .next hignored

/-! ### SND, TXB, TRN and RST -/

/-- Every byte of the latched frame is written, whatever `txb` held (R121). -/
theorem State.SameButStale.sndBegin {s t : State} (h : s.SameButStale t) (m : Message) :
    (sndBegin m s).SameButStale (sndBegin m t) := by
  obtain ⟨buf, txb, gen, rfl⟩ := h.exists_withContents
  obtain ⟨-, hbuf, -⟩ := h
  refine ⟨rfl, hbuf, fun a ha => ?_⟩
  have hin : a < (serialize s.cmdBytes m).length := by
    rw [Machine.sndBegin] at ha
    exact lt_of_lt_of_le ha (by simpa using Nat.mod_le _ _)
  exact (State.latch_byte_inside _ _ hin).trans (State.latch_byte_inside _ _ hin).symm

theorem execSnd_sameOutcome {s t : State} (h : s.SameButStale t) (m : Message) :
    SameOutcome (execSnd m s) (execSnd m t) := by
  refine .onceStarted h ?_
  have hheld := h.attempt .held
  have hperformed := (h.attempt .performed).sndBegin m
  obtain ⟨buf, txb, gen, rfl⟩ := h.exists_withContents
  exact rel_ite Iff.rfl (fun _ => rel_ite Iff.rfl (fun _ => .next hheld) fun _ => .next hperformed) fun _ => .refused _

/-- The presented byte is one of the frame, so that it is live (R122). -/
theorem execTxb_sameOutcome {s t : State} (h : s.SameButStale t) : SameOutcome (execTxb s) (execTxb t) := by
  refine .onceStarted h ?_
  have hidle := h.attempt .notEnabled
  obtain ⟨buf, txb, gen, rfl⟩ := h.exists_withContents
  obtain ⟨-, hbuf, htxb⟩ := h
  refine rel_ite Iff.rfl (fun hen => rel_ite Iff.rfl (fun _ => .next ?_) fun _ => .fault _) fun _ => .next hidle
  have hread : (s.withContents buf txb gen).txByte = s.txByte := (htxb _ (State.txEnabled_iff.mp hen).2).symm
  rw [hread]
  exact ⟨rfl, hbuf, htxb⟩

theorem execTrn_sameOutcome {s t : State} (h : s.SameButStale t) : SameOutcome (execTrn s) (execTrn t) := by
  refine .onceStarted h ?_
  have hidle := h.attempt .notEnabled
  obtain ⟨buf, txb, gen, rfl⟩ := h.exists_withContents
  obtain ⟨-, hbuf, htxb⟩ := h
  exact rel_ite Iff.rfl (fun _ => .next ⟨rfl, hbuf, htxb⟩) fun _ => .next hidle

theorem execRst_sameOutcome {s t : State} (h : s.SameButStale t) : SameOutcome (execRst s) (execRst t) := by
  obtain ⟨buf, txb, gen, rfl⟩ := h.exists_withContents
  exact .next ⟨rfl, fun a ha => absurd ha (Nat.not_lt_zero a), fun a ha => absurd ha (Nat.not_lt_zero a)⟩

/-- R24, R28, R142: an operation answers alike over any stale bytes. -/
theorem exec_sameOutcome {s t : State} (i : Instr) (h : s.SameButStale t) : SameOutcome (exec i s) (exec i t) := by
  cases i with
  | rst => exact execRst_sameOutcome h
  | rxb b => exact execRxb_sameOutcome h b
  | tmo => exact execTmo_sameOutcome h
  | snd m => exact execSnd_sameOutcome h m
  | txb => exact execTxb_sameOutcome h
  | trn => exact execTrn_sameOutcome h

/-- Settles O26, from the agreement of the two outcomes. -/
theorem staleBytesNeverRead : Obligations.StaleBytesNeverRead := fun i s t h => by
  have hsame := exec_sameOutcome i h
  refine ⟨fun s' hs => ?_, fun f hs => ?_, fun r hs => ?_⟩ <;> rw [hs] at hsame
  · generalize exec i t = o at hsame
    cases hsame with
    | next h' => exact ⟨_, rfl, h'⟩
  · generalize exec i t = o at hsame
    cases hsame
    rfl
  · generalize exec i t = o at hsame
    cases hsame
    rfl

end Sys2Proof.Machine
end

section
/-! PROOF. The frame of every operation (spec R53): what it leaves unchanged, in the registers and in the buffers. -/

namespace Sys2Proof.Machine

/-! ### TMO -/

/-- The flush acts on the assembler's registers alone (R103). -/
theorem tmoFlush_frame (s : State) :
    ∃ fa n p as, tmoFlush s = { s with
      blk := { s.blk with faState := fa, rxCnt := n, payLen := p }, actions := as } := by
  obtain ⟨-, h⟩ | ⟨-, h⟩ := tmoFlush_cases s
  · exact ⟨_, _, _, _, h⟩
  · exact ⟨_, _, _, _, h⟩

/-- The release acts on the lock and the arbiter's registers, but not on the line (R103, R128). -/
theorem tmoRelease_frame (s : State) :
    ∃ l ts len idx as, tmoRelease s = { s with
      blk := { s.blk with txLock := l, txState := ts, txLen := len, txIdx := idx }, actions := as } := by
  obtain ⟨-, h⟩ | ⟨-, h⟩ | ⟨-, h⟩ := tmoRelease_cases s
  · exact ⟨_, _, _, _, _, h⟩
  · exact ⟨_, _, _, _, _, h⟩
  · exact ⟨_, _, _, _, _, h⟩

/-- `TMO` acts on the registers R103 names, on the timer and on the reports. -/
theorem execTmo_frame {s t : State} (h : execTmo s = .next t) :
    ∃ fa n p l ts len idx armed running as w, t = { s with
      blk := { s.blk with
        faState := fa, rxCnt := n, payLen := p, txLock := l, txState := ts, txLen := len, txIdx := idx
        timerArmed := armed }
      env := { s.env with timerRunning := running }
      actions := as, outcomes := [w] } := by
  obtain ⟨-, rfl⟩ := execTmo_next.mp h
  split
  · obtain ⟨fa, n, p, as, hflush⟩ := tmoFlush_frame (s.attempt .performed).timerFired
    rw [hflush]
    obtain ⟨l, ts, len, idx, as', hrelease⟩ := tmoRelease_frame _
    exact ⟨_, _, _, _, _, _, _, _, _, _, _, hrelease⟩
  · exact ⟨_, _, _, _, _, _, _, _, _, _, _, rfl⟩

/-! ### What every operation keeps -/

/-- An operation that answers leaves the machine started, keeps `CMD_BYTES`, and reports one word (R7, R10, R180). -/
theorem exec_keeps_config {i : Instr} {s t : State} (h : exec i s = .next t) :
    t.cmdBytes = s.cmdBytes ∧ t.started = true ∧ ∃ w, t.outcomes = [w] := by
  cases i with
  | rst =>
    obtain rfl := execRst_next.mp h
    exact ⟨rfl, rfl, _, rfl⟩
  | rxb b =>
    obtain ⟨hstart, -⟩ := execRxb_next.mp h
    obtain ⟨_, _, _, _, _, _, -, rfl⟩ := execRxb_frame h
    exact ⟨rfl, hstart, _, rfl⟩
  | tmo =>
    obtain ⟨hstart, -⟩ := execTmo_next.mp h
    obtain ⟨_, _, _, _, _, _, _, _, _, _, _, rfl⟩ := execTmo_frame h
    exact ⟨rfl, hstart, _, rfl⟩
  | snd m =>
    obtain ⟨hstart, -, rfl⟩ := execSnd_next.mp h
    split
    · exact ⟨rfl, hstart, _, rfl⟩
    · exact ⟨rfl, hstart, _, rfl⟩
  | txb =>
    obtain ⟨hstart, ht⟩ := execTxb_next.mp h
    split at ht
    · obtain ⟨-, rfl⟩ := ht
      exact ⟨rfl, hstart, _, rfl⟩
    · obtain rfl := ht
      exact ⟨rfl, hstart, _, rfl⟩
  | trn =>
    obtain ⟨hstart, rfl⟩ := execTrn_next.mp h
    split
    · exact ⟨rfl, hstart, _, rfl⟩
    · exact ⟨rfl, hstart, _, rfl⟩

/-! ### The obligations -/

/-- Settles O6: of the buffers only the byte at the counter is written. -/
theorem rxbFrame : Obligations.RxbFrame := fun s t b h => by
  obtain ⟨_, _, _, _, _, _, -, rfl⟩ := execRxb_frame h
  exact ⟨rfl, fun a ha => State.append_byte_other b s ha, fun _ => rfl⟩

/-- Settles O9: neither share of `TMO` writes a buffer. -/
theorem tmoFrame : Obligations.TmoFrame := fun s t h => by
  obtain ⟨_, _, _, _, _, _, _, _, _, _, _, rfl⟩ := execTmo_frame h
  exact ⟨rfl, fun w => State.byte_congr (by cases w <;> rfl) rfl⟩

/-- Settles O12: a performed `SND` writes `txb` by its latch alone, which ends with the frame. -/
theorem sndFrame : Obligations.SndFrame := fun s t m h => by
  obtain ⟨-, -, rfl⟩ := execSnd_next.mp h
  split
  · exact ⟨rfl, fun _ => rfl, fun _ _ => rfl⟩
  · exact ⟨rfl, fun _ => rfl, fun a ha => State.latch_byte_outside _ s ha⟩

/-- Settles O16, each operation by what it answers when enabled and when not. -/
theorem txbTrnRstFrame : Obligations.TxbTrnRstFrame := fun s t => by
  refine ⟨fun h => ?_, fun h => ?_, fun h => ?_⟩
  · obtain ⟨-, ht⟩ := execTxb_next.mp h
    split at ht
    · obtain ⟨-, rfl⟩ := ht
      exact ⟨rfl, fun w => State.byte_congr (by cases w <;> rfl) rfl⟩
    · obtain rfl := ht
      exact ⟨rfl, fun _ _ => rfl⟩
  · obtain ⟨-, rfl⟩ := execTrn_next.mp h
    split
    · exact ⟨rfl, fun w => State.byte_congr (by cases w <;> rfl) rfl⟩
    · exact ⟨rfl, fun _ _ => rfl⟩
  · obtain rfl := execRst_next.mp h
    rfl

end Sys2Proof.Machine
end

section
/-! PROOF. From a state that meets the invariant nothing faults and every sequence of well-formed operations runs to its
end: the invariant keeps both counters inside their buffers (spec R52, R59, R109). -/

namespace Sys2Proof.Machine

/-! ### The counters (R37, R39) -/

/-- There is room in `buf` for one more byte (R109). -/
theorem State.Inv.rxCnt_lt {s : State} (hs : s.Inv) : s.blk.rxCnt.toNat < s.bufSize := by
  have hsize : s.bufSize = s.headerSize + 255 := rfl
  have hpay := s.blk.payLen.isLt
  obtain ⟨hrx, -⟩ := hs
  obtain ⟨-, hcnt, -⟩ | ⟨-, -, hcnt, -⟩ | ⟨-, -, hcnt, -⟩ := State.assemblerShape_iff.mp hrx
  · simp [hcnt, hsize]
  · omega
  · omega

/-- A presented byte is a byte of `txb` (R52). -/
theorem State.Inv.txIdx_lt {s : State} (hs : s.Inv) (hen : s.txEnabled = true) : s.blk.txIdx.toNat < s.bufSize := by
  obtain ⟨hts, hlt⟩ := State.txEnabled_iff.mp hen
  obtain ⟨-, -, ⟨-, hsend, -⟩, -⟩ := hs
  obtain ⟨-, hlen, -⟩ := hsend (by simp [hts])
  exact hlt.trans_le hlen

/-! ### No fault -/

theorem State.onceStarted_ne_fault {s : State} {g : State → Outcome} {f : Fault} (h : g s ≠ .fault f) :
    s.onceStarted g ≠ .fault f := by
  unfold State.onceStarted
  split
  · exact h
  · simp

/-- Only `RXB` and `TXB` index a buffer, and the invariant bounds both indices (R52). -/
theorem exec_ne_fault {i : Instr} {s : State} {f : Fault} (hs : s.Inv) : exec i s ≠ .fault f := by
  cases i with
  | rst => simp [exec, execRst]
  | rxb b =>
    rw [exec, execRxb]
    exact State.onceStarted_ne_fault (by simp [hs.rxCnt_lt])
  | tmo =>
    rw [exec, execTmo]
    exact State.onceStarted_ne_fault (by split <;> simp [State.unperformed])
  | snd m =>
    rw [exec, execSnd]
    refine State.onceStarted_ne_fault ?_
    split
    · split <;> simp [State.unperformed]
    · simp
  | txb =>
    rw [exec, execTxb]
    refine State.onceStarted_ne_fault ?_
    split
    · next hen => simp [hs.txIdx_lt hen]
    · simp [State.unperformed]
  | trn =>
    rw [exec, execTrn]
    exact State.onceStarted_ne_fault (by split <;> simp [State.unperformed])

theorem performAll_ne_fault {ops : List Instr} {s : State} {f : Fault} (hs : s.Inv) :
    performAll ops s ≠ .fault f := by
  induction ops generalizing s with
  | nil => simp [performAll]
  | cons i is ih =>
    rw [performAll]
    cases hi : exec i s with
    | next t =>
      have hrest : performAll is t ≠ .fault f := ih (exec_inv hs hi)
      cases his : performAll is t with
      | next u => simp [his]
      | fault g => simpa [his] using hrest
      | refused r => simp [his]
    | fault g => exact absurd hi (exec_ne_fault hs)
    | refused r => simp

theorem grantSend_ne_fault {m : Option Message} {s : State} {f : Fault} (hs : s.Inv) : grantSend m s ≠ .fault f := by
  unfold grantSend
  split
  · simp
  · cases m with
    | none => simp
    | some m =>
      cases hm : exec (.snd m) s with
      | next u => simp [hm]
      | fault g => exact absurd hm (exec_ne_fault hs)
      | refused r => simp [hm]

/-- The staging write of a cycle keeps the invariant, so that its operations and its request find it (R156). -/
theorem runCycle_ne_fault {p : PortIn} {s : State} {f : Fault} (hs : s.Inv) : runCycle p s ≠ .fault f := by
  have hopen := s.openCycle_inv p hs
  unfold runCycle
  cases hops : performAll (cycleOps p s) (s.openCycle p) with
  | next t =>
    have ht : t.Inv := performAll_inv hopen hops
    simp only
    split
    · exact grantSend_ne_fault ht
    · simp
  | fault g => exact absurd hops (performAll_ne_fault hopen)
  | refused r => simp

theorem clockCycle_ne_fault {p : PortIn} {s : State} {f : Fault} (hs : s.Inv) : clockCycle p s ≠ .fault f := by
  unfold clockCycle
  split
  · exact exec_ne_fault hs
  · exact State.onceStarted_ne_fault (runCycle_ne_fault hs)

theorem step_ne_fault {s : State} {f : Fault} (hs : s.Inv) : step s ≠ .fault f := by
  unfold step
  split
  · exact clockCycle_ne_fault (s := { s with cycles := s.cycles.tail }) hs
  · unfold traceStep
    split
    · next rest _ => exact exec_ne_fault (s := { s with trace := rest }) hs
    · simp

/-! ### Every well-formed operation answers -/

/-- Once started, a well-formed operation gives a next state (R141). -/
theorem exec_answers {i : Instr} {s : State} (hs : s.Inv) (hstart : s.started = true)
    (hwf : i.wf s.cmdBytes = true) : ∃ t, exec i s = .next t := by
  cases i with
  | rst => exact ⟨_, execRst_next.mpr rfl⟩
  | rxb b => exact ⟨_, execRxb_next.mpr ⟨hstart, hs.rxCnt_lt, rfl⟩⟩
  | tmo => exact ⟨_, execTmo_next.mpr ⟨hstart, rfl⟩⟩
  | snd m => exact ⟨_, execSnd_next.mpr ⟨hstart, hwf, rfl⟩⟩
  | txb =>
    cases hen : s.txEnabled with
    | true => exact ⟨_, execTxb_next.mpr ⟨hstart, by simpa [hen] using ⟨hs.txIdx_lt hen, rfl⟩⟩⟩
    | false => exact ⟨_, execTxb_next.mpr ⟨hstart, by simp [hen]; rfl⟩⟩
  | trn => exact ⟨_, execTrn_next.mpr ⟨hstart, rfl⟩⟩

/-- A sequence of well-formed operations answers, with one word for each (R59). -/
theorem performAll_answers {ops : List Instr} {s : State} (hs : s.Inv) (hstart : s.started = true)
    (hwf : ∀ i ∈ ops, i.wf s.cmdBytes = true) :
    ∃ t, performAll ops s = .next t ∧ t.outcomes.length = ops.length := by
  induction ops generalizing s with
  | nil => exact ⟨_, rfl, rfl⟩
  | cons i is ih =>
    obtain ⟨hi, his⟩ := List.forall_mem_cons.mp hwf
    obtain ⟨u, hu⟩ := exec_answers hs hstart hi
    obtain ⟨hcmd, hstart', w, hw⟩ := exec_keeps_config hu
    obtain ⟨v, hv, hlen⟩ := ih (exec_inv hs hu) hstart' (hcmd ▸ his)
    refine ⟨u.reportsAfter v, performAll_cons.mpr ⟨u, v, hu, hv, rfl⟩, ?_⟩
    simp [hw, hlen]

/-! ### The obligations -/

/-- Settles O22: for the operations and for the step alike. -/
theorem invariantExcludesFaults : Obligations.InvariantExcludesFaults :=
  fun _ _ hs => ⟨fun _ => exec_ne_fault hs, step_ne_fault hs⟩

/-- Settles O25, by induction on the sequence. -/
theorem runsReachTheirEnd : Obligations.RunsReachTheirEnd := fun ops s hs hstart hwf => by
  obtain ⟨t, ht, hlen⟩ := performAll_answers hs hstart hwf
  exact ⟨t, ht, performAll_inv hs ht, hlen⟩

end Sys2Proof.Machine
end

section
/-! PROOF. What an operation puts on the line, and how the line takes it to the other nodes (spec R60, R61, R171). -/

namespace Sys2Proof.Machine

/-! ### The actions of RXB and TMO -/

/-- The tests of `RXB` emit nothing, or hand over the frame received so far (R100, R101). -/
theorem rxbAdvance_actions (s : State) :
    (rxbAdvance s).actions = s.actions
    ∨ (rxbAdvance s).actions = s.actions ++ [frameAction s.cmdBytes s.rxFrame] := by
  obtain ⟨h, -⟩ | ⟨h, -⟩ | ⟨h, -⟩ | ⟨h, -⟩ := rxbAdvance_cases s <;> rw [h]
  · exact .inr (by rw [complete_eq]; rfl)
  · exact .inl rfl
  · exact .inr (by rw [complete_eq])
  · exact .inl rfl

theorem tmoFlush_actions (s : State) :
    (tmoFlush s).actions = s.actions ++ if s.blk.faState = .idle then [] else [.flush s.blk.rxCnt] := by
  obtain ⟨hfa, h⟩ | ⟨hfa, h⟩ := tmoFlush_cases s <;> simp [h, hfa]

theorem tmoRelease_actions (s : State) :
    (tmoRelease s).actions = s.actions ++ if s.blk.txState = .gap then [.snddone] else [] := by
  obtain ⟨hts, h⟩ | ⟨hts, h⟩ | ⟨hts, h⟩ := tmoRelease_cases s <;> simp [h, hts]

/-! ### The bytes an operation puts on the line (R61) -/

@[simp] theorem lineBytes_append (as bs : List Action) : lineBytes (as ++ bs) = lineBytes as ++ lineBytes bs :=
  List.filterMap_append

/-- Handing a frame over puts nothing on the line. -/
@[simp] theorem lineBytes_frameAction (c : CmdBytes) (F : List Byte) : lineBytes [frameAction c F] = [] := by
  unfold frameAction
  split <;> rfl

theorem execRxb_lineBytes {s t : State} {b : Byte} (h : execRxb b s = .next t) : lineBytes t.actions = [] := by
  obtain ⟨-, -, ht⟩ := execRxb_next.mp h
  have hmid : t = rxbAdvance (rxbMid b s) := ht
  have hstart : (rxbMid b s).actions = [.tstart] := by rw [rxbMid_eq]
  obtain hact | hact := rxbAdvance_actions (rxbMid b s)
  · rw [hmid, hact, hstart]
    rfl
  · rw [hmid, hact, hstart, lineBytes_append, lineBytes_frameAction]
    rfl

theorem execTmo_lineBytes {s t : State} (h : execTmo s = .next t) : lineBytes t.actions = [] := by
  obtain ⟨-, rfl⟩ := execTmo_next.mp h
  split
  · rw [tmoRelease_actions, tmoFlush_actions]
    split <;> split <;> rfl
  · rfl

/-- An operation puts on the line the byte that a `TXB` hands over, and nothing else. -/
theorem exec_lineBytes {i : Instr} {s t : State} (h : exec i s = .next t) :
    lineBytes t.actions = if i = .txb ∧ s.txEnabled = true then [s.txByte] else [] := by
  cases i with
  | rst =>
    obtain rfl := execRst_next.mp h
    rfl
  | rxb b => exact execRxb_lineBytes h
  | tmo => exact execTmo_lineBytes h
  | snd m =>
    obtain ⟨-, -, rfl⟩ := execSnd_next.mp h
    split <;> rfl
  | txb =>
    obtain ⟨-, ht⟩ := execTxb_next.mp h
    split at ht
    · next hen =>
      obtain ⟨-, rfl⟩ := ht
      rw [if_pos ⟨rfl, hen⟩]
      rfl
    · next hen =>
      obtain rfl := ht
      rw [if_neg fun hc => hen hc.2]
      rfl
  | trn =>
    obtain ⟨-, rfl⟩ := execTrn_next.mp h
    split <;> rfl

/-! ### The bus (R60, R171) -/

/-- Taking the next byte of the line is no change of the block. -/
theorem Node.deliver_state {n n' : Node} {i : Instr} (h : n.deliver i = some n') : n'.state = n.state := by
  unfold Node.deliver at h
  split at h
  · split at h
    · simp at h
    · split at h
      · obtain rfl := Option.some.inj h
        rfl
      · simp at h
  all_goals
    obtain rfl := Option.some.inj h
    rfl

/-- What one node does to the bus: its operand is taken, its block answers, and all nodes hear its bytes. -/
theorem Bus.act_some {bus bus' : Bus} {k : Nat} {i : Instr} {n : Node} (hk : bus[k]? = some n)
    (h : bus.act k i = some bus') :
    ∃ n' t, n.deliver i = some n' ∧ exec i n.state = .next t
      ∧ bus' = (bus.set k { n' with state := t }).mapIdx fun j => Node.hear k j (lineBytes t.actions) := by
  simp only [Bus.act, hk] at h
  split at h
  · simp at h
  · next n' hdel =>
    rw [Node.deliver_state hdel] at h
    split at h
    · next t ht => exact ⟨n', t, hdel, ht, (Option.some.inj h).symm⟩
    · simp at h
    · simp at h

/-- Another node hears every byte, whatever its `LOOPBACK`. -/
theorem Node.hear_of_ne {j k : Nat} (hj : j ≠ k) (bytes : List Byte) (x : Node) :
    x.hear k j bytes = { x with heard := x.heard ++ bytes } :=
  if_neg fun h => hj h.1

/-- Settles O53: the bytes of the operation are appended to what every other node hears. -/
theorem lineDeliversInOrder : Obligations.LineDeliversInOrder := fun bus bus' k i n hk h => by
  obtain ⟨n', t, -, ht, rfl⟩ := Bus.act_some hk h
  refine ⟨by simp, fun j x hj hx => ?_⟩
  rw [List.getElem?_mapIdx, List.getElem?_set_ne hj.symm, hx, Option.map_some, Node.hear_of_ne hj, exec_lineBytes ht]

end Sys2Proof.Machine
end

section
/-! PROOF. The layout of a frame (spec R55, R70, R74), and the step that runs what its trace spells (R82). -/

namespace Sys2Proof

theorem target_of_serialize (c : CmdBytes) (m : Message) :
    le16 (byteAt (serialize c m) 1) (byteAt (serialize c m) 2) = m.target := by
  cases c <;> exact le16_lo8_hi8 m.target

theorem source_of_serialize (c : CmdBytes) (m : Message) :
    le16 (byteAt (serialize c m) 3) (byteAt (serialize c m) 4) = m.source := by
  cases c <;> exact le16_lo8_hi8 m.source

/-- The command reads back where it fits its `CMD_BYTES` (R70, R72). -/
theorem commandOf_serialize {c : CmdBytes} {m : Message} (h : m.command.toNat < 2 ^ (8 * c.count)) :
    commandOf c (serialize c m) = m.command := by
  cases c with
  | one => exact setWidth_lo8 h
  | two => exact le16_lo8_hi8 m.command

theorem payload_of_serialize (c : CmdBytes) (m : Message) : (serialize c m).drop c.headerSize = m.payload :=
  List.drop_left' (headerBytes_length c m)

/-- The length byte holds every length a well-formed payload has (R70, D6). -/
theorem payloadSize_toNat {c : CmdBytes} {m : Message} (h : m.payload.length ≤ 255) :
    (byteAt (serialize c m) (c.headerSize - 1)).toNat = m.payload.length := by
  rw [byteAt_payloadSize, BitVec.toNat_ofNat]
  exact Nat.mod_eq_of_lt (Nat.lt_succ_of_le h)

namespace Machine

/-- Settles O30, field by field. -/
theorem frameLayout : Obligations.FrameLayout := fun c m hm => by
  obtain ⟨-, hpay, hcmd⟩ := Message.wf_iff.mp hm
  have hcommand := commandOf_serialize hcmd
  have hlast : c.headerSize - 1 = 5 + c.count := by rw [CmdBytes.headerSize]; omega
  refine ⟨byteAt_serialize_zero c m, target_of_serialize c m, source_of_serialize c m, ?_, ?_,
    hlast ▸ payloadSize_toNat hpay, payload_of_serialize c m, serialize_length c m⟩
  · rintro rfl
    rw [← hcommand, commandOf, BitVec.toNat_setWidth_of_le (by decide)]
  · rintro rfl
    exact hcommand

/-- Settles O36: an empty trace spells no operation, and any other is what the step decodes. -/
theorem stepRunsDecodedOperation : Obligations.StepRunsDecodedOperation := fun s i rest h => by
  unfold step
  split
  · next hnil => simp [hnil, decode] at h
  · rw [traceStep, fetch, h]

end Machine

end Sys2Proof
end

section
/-! PROOF. The encodings are inverse to each other: `serialize` with `deserialize` (spec R74 to R76), `encode` with
`decode` (R82 to R84). -/

namespace Sys2Proof

/-! ### deserialize (R75) -/

theorem deserialize_eq_framingError {c : CmdBytes} {F : List Byte} :
    deserialize c F = .framingError ↔ 3 < (byteAt F 0).toNat := by
  rw [← Mode.ofWire_eq_none, deserialize]
  cases Mode.ofWire (byteAt F 0) <;> simp

theorem deserialize_eq_message {c : CmdBytes} {F : List Byte} {m : Message} :
    deserialize c F = .message m ↔ ∃ mode, Mode.ofWire (byteAt F 0) = some mode ∧ messageOf c mode F = m := by
  rw [deserialize]
  cases Mode.ofWire (byteAt F 0) <;> simp

/-- The fields read back from a frame are those it was made of (R70, R74, R75). -/
theorem messageOf_serialize {c : CmdBytes} {m : Message} (h : m.command.toNat < 2 ^ (8 * c.count)) :
    messageOf c m.mode (serialize c m) = m := by
  rw [messageOf, target_of_serialize, source_of_serialize, commandOf_serialize h, payload_of_serialize]

theorem deserialize_serialize {c : CmdBytes} {m : Message} (h : m.wf c = true) :
    deserialize c (serialize c m) = .message m := by
  obtain ⟨hmode, -, hcmd⟩ := Message.wf_iff.mp h
  refine deserialize_eq_message.mpr ⟨m.mode, ?_, messageOf_serialize hcmd⟩
  rw [byteAt_serialize_zero, Mode.ofWire_code_of_onWire hmode]

/-! ### serialize after deserialize (R76) -/

theorem take_eq_map_byteAt {F : List Byte} {n : Nat} (h : n ≤ F.length) :
    F.take n = (List.range n).map (byteAt F) := by
  refine List.ext_getElem (by simp [h]) fun i hi _ => ?_
  rw [List.length_take] at hi
  simp [byteAt_eq_getElem (F := F) (i := i) (by omega)]

/-- A command read from a frame fits its field, whichever its width (R72). -/
theorem commandOf_lt (c : CmdBytes) (F : List Byte) : (commandOf c F).toNat < 2 ^ (8 * c.count) := by
  cases c with
  | one =>
    rw [commandOf, BitVec.toNat_setWidth_of_le (by decide)]
    exact (byteAt F 5).isLt
  | two => exact (commandOf .two F).isLt

/-- A list as long as its header declares has the declared number of payload bytes (R70, R77). -/
theorem payload_length_of_declared {c : CmdBytes} {F : List Byte} (h : F.length = declaredLength c F) :
    (F.drop c.headerSize).length = (byteAt F (c.headerSize - 1)).toNat := by
  rw [List.length_drop, h, declaredLength, Nat.add_sub_cancel_left]

/-- The header of the message a frame spells is the frame's own header (R74, R75). -/
theorem headerBytes_messageOf {c : CmdBytes} {F : List Byte} {mode : Mode} (hmode : mode.code = byteAt F 0)
    (hlen : F.length = declaredLength c F) : headerBytes c (messageOf c mode F) = F.take c.headerSize := by
  have hle : c.headerSize ≤ F.length := hlen ▸ Nat.le_add_right _ _
  have hpay : BitVec.ofNat 8 (F.drop c.headerSize).length = byteAt F (c.headerSize - 1) := by
    rw [payload_length_of_declared hlen, BitVec.ofNat_toNat, BitVec.setWidth_eq]
  rw [take_eq_map_byteAt hle, headerBytes]
  simp only [messageOf, hmode, hpay]
  cases c <;> simp [commandBytes, commandOf, List.range_succ]

theorem serialize_deserialize {c : CmdBytes} {F : List Byte} {m : Message} (hlen : F.length = declaredLength c F)
    (h : deserialize c F = .message m) : m.wf c = true ∧ serialize c m = F := by
  obtain ⟨mode, hmode, rfl⟩ := deserialize_eq_message.mp h
  obtain ⟨honWire, hcode⟩ := Mode.onWire_of_ofWire hmode
  refine ⟨Message.wf_iff.mpr ⟨honWire, ?_, commandOf_lt c F⟩, ?_⟩
  · exact payload_length_of_declared hlen ▸ Nat.le_of_lt_succ (byteAt F (c.headerSize - 1)).isLt
  · rw [serialize, headerBytes_messageOf hcode hlen]
    exact List.take_append_drop _ F

/-! ### decodeFrame (R82, R84) -/

/-- A byte of the header is the same in the first declared bytes alone (R55). -/
theorem byteAt_take_declared {c : CmdBytes} {bytes : List Byte} {k : Nat} (h : declaredLength c bytes ≤ bytes.length)
    (hk : k < c.headerSize) : byteAt (bytes.take (declaredLength c bytes)) k = byteAt bytes k := by
  have hin : k < (bytes.take (declaredLength c bytes)).length := by
    rw [List.length_take_of_le h]
    exact hk.trans_le (Nat.le_add_right _ _)
  rw [← byteAt_append_left (G := bytes.drop (declaredLength c bytes)) hin, List.take_append_drop]

/-- The first declared bytes of a list are as long as their own header declares. -/
theorem length_take_declared {c : CmdBytes} {bytes : List Byte} (h : declaredLength c bytes ≤ bytes.length) :
    (bytes.take (declaredLength c bytes)).length = declaredLength c (bytes.take (declaredLength c bytes)) := by
  have hH := c.headerSize_bounds
  have hlast := byteAt_take_declared h (k := c.headerSize - 1) (by omega)
  rw [List.length_take_of_le h]
  exact congrArg (c.headerSize + BitVec.toNat ·) hlast.symm

theorem decodeFrame_of_truncated {c : CmdBytes} {bytes : List Byte} (h : bytes.length < declaredLength c bytes) :
    decodeFrame c bytes = .refused (.truncated .SND) := by
  rw [decodeFrame, if_pos h, ite_self]

/-- A frame with a bad `target_mode` is refused with that byte (R84). -/
theorem decodeFrame_of_badTargetMode {c : CmdBytes} {bytes : List Byte} (h : declaredLength c bytes ≤ bytes.length)
    (htag : 3 < (byteAt bytes 0).toNat) : decodeFrame c bytes = .refused (.badTargetMode (byteAt bytes 0)) := by
  have hH := c.headerSize_bounds
  have herr : deserialize c (bytes.take (declaredLength c bytes)) = .framingError := by
    rwa [deserialize_eq_framingError, byteAt_take_declared h (by omega)]
  have hhead : c.headerSize ≤ bytes.length := (Nat.le_add_right _ _).trans h
  rw [decodeFrame, if_neg (Nat.not_lt.mpr hhead), if_neg (Nat.not_lt.mpr h), herr]

/-- An `EM` operand is accepted exactly if its declared bytes are there and spell a message (R82, R84). -/
theorem decodeFrame_eq_op {c : CmdBytes} {bytes rest : List Byte} {i : Instr} :
    decodeFrame c bytes = .op i rest ↔ declaredLength c bytes ≤ bytes.length
      ∧ ∃ m, deserialize c (bytes.take (declaredLength c bytes)) = .message m
        ∧ .snd m = i ∧ bytes.drop (declaredLength c bytes) = rest := by
  by_cases hlen : declaredLength c bytes ≤ bytes.length
  · have hhead : c.headerSize ≤ bytes.length := (Nat.le_add_right _ _).trans hlen
    rw [decodeFrame, if_neg (Nat.not_lt.mpr hhead), if_neg (Nat.not_lt.mpr hlen)]
    cases deserialize c (bytes.take (declaredLength c bytes)) <;> simp [hlen]
  · simp [decodeFrame_of_truncated (Nat.lt_of_not_le hlen), hlen]

theorem decodeFrame_serialize {c : CmdBytes} {m : Message} (h : m.wf c = true) (rest : List Byte) :
    decodeFrame c (serialize c m ++ rest) = .op (.snd m) rest := by
  obtain ⟨-, hpay, -⟩ := Message.wf_iff.mp h
  rw [decodeFrame_eq_op, declaredLength_serialize hpay rest, List.take_left, List.drop_left]
  exact ⟨by simp, m, deserialize_serialize h, rfl, rfl⟩

/-- Whatever `EM` operand is accepted begins with the frame of a well-formed message (R76, R82). -/
theorem serialize_of_decodeFrame {c : CmdBytes} {bytes rest : List Byte} {i : Instr}
    (h : decodeFrame c bytes = .op i rest) : ∃ m, i = .snd m ∧ m.wf c = true ∧ bytes = serialize c m ++ rest := by
  obtain ⟨hlen, m, hm, rfl, rfl⟩ := decodeFrame_eq_op.mp h
  obtain ⟨hwf, hser⟩ := serialize_deserialize (length_take_declared hlen) hm
  exact ⟨m, rfl, hwf, by rw [hser, List.take_append_drop]⟩

/-! ### decode (R82 to R84) -/

/-- A row is selected by its own code alone (R83). -/
theorem opRow_eq_some {b : Byte} {r : OpRow} (h : opRow b = some r) : r ∈ opTable ∧ r.pattern = b := by
  have hall : ∀ b : Byte, ∀ r ∈ opTable, opRow b = some r → r.pattern = b := by decide
  have hmem : r ∈ opTable := List.mem_of_find?_eq_some h
  exact ⟨hmem, hall b r hmem h⟩

theorem decode_of_opRow {c : CmdBytes} {b : Byte} {r : OpRow} (h : opRow b = some r) (bytes : List Byte) :
    decode c (b :: bytes) = decodeOperand c r.name bytes := by
  rw [decode, h]

/-- Each operation's code selects its row, and its operand decodes back (R82, R83). -/
theorem decode_encode {c : CmdBytes} {i : Instr} (h : i.wf c = true) (rest : List Byte) :
    decode c (encode c i ++ rest) = .op i rest := by
  cases i with
  | snd m => exact decodeFrame_serialize h rest
  | rst => rfl
  | rxb b => rfl
  | tmo => rfl
  | txb => rfl
  | trn => rfl

/-- Accepted bytes are an operation's code and its operand: one case for each row of the table (R83). -/
theorem encode_of_decode {c : CmdBytes} {bytes rest : List Byte} {i : Instr} (h : decode c bytes = .op i rest) :
    i.wf c = true ∧ bytes = encode c i ++ rest := by
  cases bytes with
  | nil => simp [decode] at h
  | cons b operand =>
    cases hrow : opRow b with
    | none => simp [decode, hrow] at h
    | some r =>
      rw [decode_of_opRow hrow] at h
      obtain ⟨hmem, rfl⟩ := opRow_eq_some hrow
      simp only [opTable, List.mem_cons, List.not_mem_nil, or_false] at hmem
      obtain rfl | rfl | rfl | rfl | rfl | rfl := hmem
      case inr.inl => -- the row of `RXB`
        cases operand with
        | nil => simp [decodeOperand, decodeByte] at h
        | cons b bytes =>
          obtain ⟨rfl, rfl⟩ := Decoded.op.inj h
          exact ⟨rfl, rfl⟩
      case inr.inr.inr.inl => -- the row of `SND`
        obtain ⟨m, rfl, hwf, rfl⟩ := serialize_of_decodeFrame h
        exact ⟨hwf, rfl⟩
      all_goals
        obtain ⟨rfl, rfl⟩ := Decoded.op.inj h
        exact ⟨rfl, rfl⟩

namespace Machine

/-! ### The obligations -/

/-- Settles O33, operation by operation; the frame of `SND` by its declared length. -/
theorem decodeOfEncode : Obligations.DecodeOfEncode := fun _ _ rest h => decode_encode h rest

/-- Settles O34, row by row of the operation table. -/
theorem encodeOfDecode : Obligations.EncodeOfDecode := fun _ _ _ _ h => encode_of_decode h

/-- Settles O29: the fields read back, and the header spelled again is the header read. -/
theorem serializeDeserializeRoundTrip : Obligations.SerializeDeserializeRoundTrip := fun _ =>
  ⟨fun _ h => deserialize_serialize h, fun _ _ _ hlen h => serialize_deserialize hlen h⟩

/-- Settles O31: only byte 0 decides. -/
theorem framingErrorIffBadTargetMode : Obligations.FramingErrorIffBadTargetMode :=
  fun _ _ => deserialize_eq_framingError

/-- Settles O32: a list shorter than a header is shorter than any length a header declares. -/
theorem illFormedTracesRefused : Obligations.IllFormedTracesRefused := fun c b rest => by
  refine ⟨fun hb => ?_, rfl, fun hshort => ?_, fun _ hlen htag => decodeFrame_of_badTargetMode hlen htag,
    fun s e hc htrace he => ?_⟩
  · rw [decode, opRow_eq_none.mpr hb]
  · refine decodeFrame_of_truncated ?_
    rw [declaredLength] at hshort ⊢
    omega
  · subst hc
    rw [step, htrace]
    simp only [traceStep, fetch, htrace, he]

/-- Settles O35: closed traces, evaluated. -/
theorem decodeKnownTraces : Obligations.DecodeKnownTraces := by
  unfold Obligations.DecodeKnownTraces
  decide

end Machine

end Sys2Proof
end

section
/-! PROOF. A clock cycle in its stages (spec R156): the staging write, the receive events, the transmit events, the
request. -/

namespace Sys2Proof.Machine

/-! ### Sequences of operations -/

/-- An attempt starts its own reports, whatever the state reported before. -/
theorem exec_forgets_reports (i : Instr) (s : State) (as : List Action) (ws : List OutcomeWord) :
    exec i { s with actions := as, outcomes := ws } = exec i s := by
  cases i <;> rfl

theorem performAll_forgets_reports (ops : List Instr) (s : State) (as : List Action) (ws : List OutcomeWord) :
    performAll ops { s with actions := as, outcomes := ws } = performAll ops s := by
  cases ops with
  | nil => rfl
  | cons i is => rw [performAll, exec_forgets_reports, performAll]

/-- One operation as a sequence is that operation. -/
theorem performAll_singleton (i : Instr) (s : State) : performAll [i] s = exec i s := by
  rw [performAll]
  cases exec i s <;> simp [performAll, State.reportsAfter]

theorem State.reportsAfter_assoc (t u v : State) :
    (t.reportsAfter u).reportsAfter v = t.reportsAfter (u.reportsAfter v) := by
  simp [State.reportsAfter]

/-- A sequence in two parts (R59). -/
theorem performAll_append {ops ops' : List Instr} {s t : State} :
    performAll (ops ++ ops') s = .next t
      ↔ ∃ u v, performAll ops s = .next u ∧ performAll ops' u = .next v ∧ t = u.reportsAfter v := by
  induction ops generalizing s t with
  | nil =>
    simp only [List.nil_append, performAll_nil, exists_and_left, exists_eq_left, performAll_forgets_reports]
    exact ⟨fun h => ⟨t, h, rfl⟩, fun ⟨_, hv, ht⟩ => ht ▸ hv⟩
  | cons i is ih =>
    simp only [List.cons_append, performAll_cons, ih]
    constructor
    · rintro ⟨u, v, hu, ⟨x, y, hx, hy, rfl⟩, rfl⟩
      exact ⟨u.reportsAfter x, y, ⟨u, x, hu, hx, rfl⟩, (performAll_forgets_reports _ x _ _).trans hy,
        (State.reportsAfter_assoc u x y).symm⟩
    · rintro ⟨_, v, ⟨u, x, hu, hx, rfl⟩, hv, rfl⟩
      exact ⟨u, x.reportsAfter v, hu, ⟨x, v, hx, (performAll_forgets_reports _ x _ _).symm.trans hv, rfl⟩,
        State.reportsAfter_assoc u x v⟩

theorem performAll_keeps_config {ops : List Instr} {s t : State} (hstart : s.started = true)
    (h : performAll ops s = .next t) : t.cmdBytes = s.cmdBytes ∧ t.started = true := by
  induction ops generalizing s t with
  | nil =>
    obtain rfl := performAll_nil.mp h
    exact ⟨rfl, hstart⟩
  | cons i is ih =>
    obtain ⟨u, v, hu, hv, rfl⟩ := performAll_cons.mp h
    obtain ⟨hcmd, hstart', -⟩ := exec_keeps_config hu
    obtain ⟨hcmd', hstart''⟩ := ih hstart' hv
    exact ⟨hcmd'.trans hcmd, hstart''⟩

/-! ### Cycles without a tie (R87, R193) -/

theorem State.stagingWrites_iff {p : PortIn} {s : State} :
    s.stagingWrites p = true ↔ p.plwEn = true ∧ s.sndBusy = false ∧ p.plwAddr ≠ 255 := by
  simp [State.stagingWrites, and_assoc]

theorem State.stage_of_dropped {p : PortIn} {s : State} (h : s.stagingWrites p = false) : s.stage p = s := by
  simp [State.stage, h]

/-- A write that takes effect acts as if it came just before the cycle's events. -/
theorem clockCycle_of_no_tie {p : PortIn} {s : State} (h : s.stagingTie p = false) :
    clockCycle p s = clockCycle { p with plwEn := false } (s.stage p) := by
  obtain ⟨hopen, hreq⟩ := State.openCycle_of_no_tie h
  obtain ⟨hopen', hreq'⟩ := State.openCycle_of_no_write (p := { p with plwEn := false }) (s := s.stage p) rfl
  have hops : cycleOps { p with plwEn := false } (s.stage p) = cycleOps p s := cycleOps_stage _ _ _
  have hrst : exec .rst (s.stage p) = exec .rst s := by
    rw [State.stage_eq]
    rfl
  have hrun : runCycle p s = runCycle { p with plwEn := false } (s.stage p) := by
    rw [runCycle, runCycle, hopen, hreq, hopen', hreq', hops]
    rfl
  simp only [clockCycle, State.onceStarted, State.stage_started, hrst, hrun]

/-- A cycle without events, whatever the address and data of the staging port hold, performs `TRN` if it is due (R123,
R156). -/
theorem clockCycle_without_events {s : State} (hstart : s.started = true) (a d : Byte) :
    clockCycle { PortIn.quiet with plwAddr := a, plwData := d } s
      = performAll (if s.trnEnabled then [.trn] else []) s := by
  obtain ⟨hopen, -⟩ := State.openCycle_of_no_write (p := { PortIn.quiet with plwAddr := a, plwData := d }) (s := s) rfl
  have hops : cycleOps { PortIn.quiet with plwAddr := a, plwData := d } s = if s.trnEnabled then [.trn] else [] := by
    simp [cycleOps, receiveOps, transmitOps, PortIn.quiet]
  change s.onceStarted (runCycle _) = _
  rw [State.onceStarted, if_pos hstart, runCycle, hopen, hops]
  cases performAll (if s.trnEnabled then [.trn] else []) s <;> rfl

/-- Nothing is due while no send is under way (R88, R122, R123). -/
theorem State.not_enabled_of_not_busy {s : State} (h : s.sndBusy = false) :
    s.txEnabled = false ∧ s.trnEnabled = false := by
  have htx : s.blk.txState = .txIdle := by simpa [State.sndBusy] using h
  simp [State.txEnabled, State.trnEnabled, htx]

/-- A write that takes effect writes one byte of `txb` (R87). -/
theorem State.stage_of_written {p : PortIn} {s : State} (h : s.stagingWrites p = true) :
    s.stage p = { s with blk := { s.blk with
      txb := Mem.write (s.headerSize + p.plwAddr.toNat) p.plwData s.blk.txb } } := by
  simp [State.stage, h]

theorem State.stage_byte {p : PortIn} {s : State} (h : s.stagingWrites p = true) (a : Nat) :
    (s.stage p).byte .txb a = if a = s.headerSize + p.plwAddr.toNat then p.plwData else s.byte .txb a := by
  rw [State.stage_of_written h]
  split
  · next ha => simp [State.byte, Block.mem, ha, Mem.find_write_same]
  · next ha => simp [State.byte, Block.mem, Mem.find_write_other _ _ ha]

/-- A cycle with nothing but a staging write. -/
def PortIn.staging (a d : Byte) : PortIn := { PortIn.quiet with plwEn := true, plwAddr := a, plwData := d }

/-- While no send is under way such a cycle is its write, if any (R87). -/
theorem clockCycle_staging {s : State} {a d : Byte} (hstart : s.started = true) (hbusy : s.sndBusy = false) :
    clockCycle (.staging a d) s = .next { s.stage (.staging a d) with actions := [], outcomes := [] } := by
  have hdue : (s.stage (.staging a d)).trnEnabled = false := by
    rw [State.stage_eq]
    exact (State.not_enabled_of_not_busy hbusy).2
  rw [clockCycle_of_no_tie (by simp [State.stagingTie, PortIn.staging, PortIn.quiet])]
  refine (clockCycle_without_events ((State.stage_started _ s).trans hstart) a d).trans ?_
  rw [hdue]
  rfl

/-! ### The obligations -/

/-- Settles O37: a step without input is a quiet cycle. -/
theorem quietStepPerformsDueTurnaround : Obligations.QuietStepPerformsDueTurnaround := fun s hstart htrace hcycles => by
  have hstep : step s = performAll (if s.trnEnabled then [.trn] else []) s := by
    rw [← clockCycle_without_events hstart 0 0]
    cases s
    subst htrace hcycles
    rfl
  refine ⟨fun hdue => ?_, fun hdue => ?_⟩
  · rw [hstep, hdue, if_pos rfl, performAll_singleton]
  · rw [hstep, hdue]
    rfl

/-- Settles O39: a dropped write stages nothing, and any other is moved before its cycle. -/
theorem stagingWrite : Obligations.StagingWrite := fun p s => by
  refine ⟨fun hdrop => ?_, fun hstart hbusy haddr => ?_, clockCycle_of_no_tie⟩
  · have hw : s.stagingWrites p = false := by
      obtain h | h := hdrop <;> simp [State.stagingWrites, h]
    have htie : s.stagingTie p = false := by simp [State.stagingTie, hw]
    rw [clockCycle_of_no_tie htie, State.stage_of_dropped hw]
  · have hw : s.stagingWrites (.staging p.plwAddr p.plwData) = true := State.stagingWrites_iff.mpr ⟨rfl, hbusy, haddr⟩
    refine ⟨_, clockCycle_staging hstart hbusy, ?_, ?_, fun a ha => ?_⟩
    · rw [State.stage_eq]
    · exact (State.stage_byte hw _).trans (if_pos rfl)
    · exact (State.stage_byte hw a).trans (if_neg ha)

end Sys2Proof.Machine
end

section
/-! PROOF. The request of a cycle (spec R121, R156): what it answers to the state the cycle's other operations leave,
and the tie of a request with a staging write (log 12). -/

namespace Sys2Proof.Machine

/-! ### The answers of SND (R121) -/

theorem exec_snd_of_free {m : Message} {s : State} (hstart : s.started = true) (hlock : s.blk.txLock = false)
    (hm : m.wf s.cmdBytes = true) : exec (.snd m) s = .next (sndBegin m (s.attempt .performed)) :=
  execSnd_next.mpr ⟨hstart, hm, by simp [hlock]⟩

theorem exec_snd_of_illFormed {m : Message} {s : State} (hstart : s.started = true) (hm : m.wf s.cmdBytes = false) :
    exec (.snd m) s = .refused .illFormedSend := by
  simp [exec, execSnd, State.onceStarted, hstart, hm]

/-- What is latched is the whole frame (R28, R121). -/
theorem sndBegin_txFrame {m : Message} {s : State} (hm : m.wf s.cmdBytes = true) :
    (sndBegin m s).txFrame = serialize s.cmdBytes m := by
  rw [State.txFrame, sndBegin_txLen hm]
  exact State.latch_bytes _ _

/-! ### The answers of a request (R156 step 6) -/

theorem grantSend_of_locked {m : Option Message} {t : State} (h : t.blk.txLock = true) :
    grantSend m t = .next { t with outcomes := t.outcomes ++ [.held] } :=
  grantSend_next.mpr (.inl ⟨h, rfl⟩)

theorem grantSend_of_free {m : Message} {t : State} (hstart : t.started = true) (hlock : t.blk.txLock = false)
    (hm : m.wf t.cmdBytes = true) :
    grantSend (some m) t = .next (t.reportsAfter (sndBegin m (t.attempt .performed))) :=
  grantSend_next.mpr (.inr ⟨hlock, m, rfl, _, exec_snd_of_free hstart hlock hm, rfl⟩)

theorem grantSend_of_illFormed {m : Option Message} {t : State} (hstart : t.started = true)
    (hlock : t.blk.txLock = false) (hm : ∀ m', m = some m' → m'.wf t.cmdBytes = false) :
    grantSend m t = .refused .illFormedSend := by
  cases m with
  | none => simp [grantSend, hlock]
  | some m' => simp [grantSend, hlock, exec_snd_of_illFormed hstart (hm m' rfl)]

/-! ### Cycles with and without a request -/

/-- The operations a cycle performs before its request are well-formed (R78). -/
theorem cycleOps_wf (c : CmdBytes) (p : PortIn) (s : State) : ∀ i ∈ cycleOps p s, i.wf c = true := by
  intro i hi
  cases i with
  | snd m =>
    have : Instr.snd m ∉ cycleOps p s := by
      unfold cycleOps receiveOps transmitOps
      split <;> split <;> split <;> simp
    exact absurd hi this
  | _ => rfl

theorem clockCycle_of_no_request {p : PortIn} {s : State} (hstart : s.started = true) (hrst : p.rst = false)
    (hreq : p.sndReq = false) : clockCycle p s = performAll (cycleOps p s) (s.openCycle p) := by
  simp only [clockCycle, hrst, State.onceStarted, hstart, runCycle, hreq]
  cases performAll (cycleOps p s) (s.openCycle p) <;> rfl

theorem clockCycle_of_request {p : PortIn} {s u : State} (hstart : s.started = true) (hrst : p.rst = false)
    (hreq : p.sndReq = true) (hu : performAll (cycleOps p s) (s.openCycle p) = .next u) :
    clockCycle p s = grantSend (s.requestedMessage p) u := by
  simp [clockCycle, hrst, State.onceStarted, hstart, runCycle, hreq, hu]

theorem cycleOps_openCycle (p q : PortIn) (s : State) : cycleOps p (s.openCycle q) = cycleOps p s :=
  cycleOps_stage p q s

/-- What a cycle does before its request is the cycle without write and request, begun after the write (R87, R156). -/
theorem clockCycle_of_openCycle {p : PortIn} {s : State} (hstart : s.started = true) (hrst : p.rst = false) :
    clockCycle { p with plwEn := false, sndReq := false } (s.openCycle p)
      = performAll (cycleOps p s) (s.openCycle p) := by
  have hopen : (s.openCycle p).started = true := (s.openCycle_started p).trans hstart
  obtain ⟨hsame, -⟩ := State.openCycle_of_no_write (p := { p with plwEn := false, sndReq := false })
    (s := s.openCycle p) rfl
  refine (clockCycle_of_no_request (p := { p with plwEn := false, sndReq := false }) hopen hrst rfl).trans ?_
  rw [hsame]
  exact congrArg (performAll · (s.openCycle p)) (cycleOps_openCycle p p s)

/-! ### The obligation -/

/-- Settles O40: the answers of a request, each to the state the cycle's other operations leave. -/
theorem stagingTieSendsEitherReading : Obligations.StagingTieSendsEitherReading := fun p s hs hstart hrst htie => by
  obtain ⟨htied, hreading⟩ := State.openCycle_of_tie htie
  have hreq : p.sndReq = true := by
    simp only [State.stagingTie, Bool.and_eq_true] at htie
    exact htie.1.2
  have hopen : (s.openCycle p).started = true := (s.openCycle_started p).trans hstart
  obtain ⟨u, hu, -⟩ := performAll_answers (s.openCycle_inv p hs) hopen (cycleOps_wf _ p s)
  obtain ⟨hcmd, hstart'⟩ := performAll_keeps_config hopen hu
  replace hcmd : u.cmdBytes = s.cmdBytes := hcmd.trans (State.stage_cmdBytes p s)
  refine ⟨u, s.requestedMessage p, hreading, htied ▸ (clockCycle_of_openCycle hstart hrst).trans hu, ?_⟩
  rw [clockCycle_of_request hstart hrst hreq hu, ← hcmd]
  refine ⟨grantSend_of_locked, fun m hlock hr hm => ?_, fun hlock hm => grantSend_of_illFormed hstart' hlock hm⟩
  rw [hr]
  exact ⟨_, grantSend_of_free hstart' hlock hm, sndBegin_txFrame (s := u.attempt .performed) hm, rfl, rfl,
    exec_snd_of_free hstart' hlock hm⟩

end Sys2Proof.Machine
end

section
/-! PROOF. What `RXB` and `TMO` report from a state that meets the invariant (spec R100 to R104), and how long a
surfaced frame can be read (R86, R188). -/

namespace Sys2Proof.Machine

/-! ### The frame received so far -/

theorem State.rxFrame_length (s : State) : s.rxFrame.length = s.blk.rxCnt.toNat := s.bytes_length _ _ _

theorem byteAt_rxFrame {s : State} {k : Nat} (h : k < s.blk.rxCnt.toNat) : byteAt s.rxFrame k = s.byte .buf k := by
  rw [byteAt_eq_getElem (s.rxFrame_length.symm ▸ h)]
  exact (s.bytes_getElem _ _ _ _ _).trans (by rw [Nat.zero_add])

/-- With the header there, the frame declares the length its `payload_size` byte gives (R55, R77). -/
theorem declaredLength_rxFrame {s : State} (h : s.headerSize ≤ s.blk.rxCnt.toNat) :
    declaredLength s.cmdBytes s.rxFrame = s.headerSize + s.headerPayLen.toNat := by
  have hH : 7 ≤ s.headerSize := s.cmdBytes.headerSize_bounds.1
  have hbyte := byteAt_rxFrame (s := s) (k := s.headerSize - 1) (by omega)
  exact congrArg (s.headerSize + BitVec.toNat ·) hbyte

/-! ### The byte that ends a frame (R77, R100) -/

/-- The bytes received so far and the byte `b` are as long as their own header declares. -/
abbrev State.FrameEnds (b : Byte) (s : State) : Prop :=
  s.headerSize ≤ (s.rxFrame ++ [b]).length
    ∧ (s.rxFrame ++ [b]).length = declaredLength s.cmdBytes (s.rxFrame ++ [b])

/-- The end of a frame, read from the registers once the byte is stored. -/
theorem State.frameEnds_iff {s : State} {b : Byte} (hcnt : s.blk.rxCnt.toNat < s.bufSize) :
    s.FrameEnds b ↔ s.headerSize ≤ (rxbMid b s).blk.rxCnt.toNat
      ∧ (rxbMid b s).blk.rxCnt.toNat = s.headerSize + (rxbMid b s).headerPayLen.toNat := by
  have hcmd : (rxbMid b s).cmdBytes = s.cmdBytes := by rw [rxbMid_eq]
  have hsize : (rxbMid b s).headerSize = s.headerSize := congrArg CmdBytes.headerSize hcmd
  rw [State.FrameEnds, ← rxbMid_rxFrame hcnt, State.rxFrame_length]
  refine and_congr_right fun hle => ?_
  rw [← hcmd, declaredLength_rxFrame (hsize ▸ hle), hsize]

/-- R37 once the byte is stored and before it is tested (R104): at most a whole header, or within a payload whose length
has been read. -/
theorem rxbMid_cases {s : State} (b : Byte) (hs : s.Inv) :
    ((rxbMid b s).blk.faState = .headerPartial ∧ (rxbMid b s).blk.rxCnt.toNat ≤ s.headerSize)
    ∨ ((rxbMid b s).blk.faState = .payloadPartial ∧ s.headerSize < (rxbMid b s).blk.rxCnt.toNat
        ∧ (rxbMid b s).blk.payLen = (rxbMid b s).headerPayLen) := by
  have hH : 7 ≤ s.headerSize := s.cmdBytes.headerSize_bounds.1
  have hmid : (rxbMid b s).blk.rxCnt.toNat = s.blk.rxCnt.toNat + 1 := by rw [rxbMid_eq]; exact rxCnt_succ hs.rxCnt_lt
  have hsize : (rxbMid b s).headerSize = s.headerSize := by rw [rxbMid_eq]; rfl
  have hfa : (rxbMid b s).blk.faState = if s.blk.faState = .idle then .headerPartial else s.blk.faState := by
    rw [rxbMid_eq]
  have hpl : (rxbMid b s).blk.payLen = s.blk.payLen := by rw [rxbMid_eq]
  obtain ⟨hshape, -⟩ := hs
  rw [hmid, hfa, hpl, State.headerPayLen, hsize, rxbMid_byte]
  obtain ⟨hf, hc, -⟩ | ⟨hf, -, hc, -⟩ | ⟨hf, hlo, -, hp⟩ := State.assemblerShape_iff.mp hshape
  · exact .inl ⟨by simp [hf], by simp [hc]; omega⟩
  · exact .inl ⟨by simp [hf], hc⟩
  · exact .inr ⟨by simp [hf], Nat.lt_succ_of_le hlo, by rw [if_neg (by omega), hp, State.headerPayLen]⟩

theorem complete_reports (s : State) :
    (complete s).actions = s.actions ++ [frameAction s.cmdBytes s.rxFrame]
      ∧ (complete s).rxfLen = some s.blk.rxCnt := by
  rw [complete_eq]
  exact ⟨rfl, rfl⟩

/-- `RXB` hands the bytes received over, and shows their length, exactly at the end of a frame (R100, R101, R104). -/
theorem execRxb_reports {s t : State} {b : Byte} (hs : s.Inv) (h : execRxb b s = .next t) :
    (s.FrameEnds b ∧ t.actions = [.tstart, frameAction s.cmdBytes (s.rxFrame ++ [b])]
        ∧ t.rxfLen = some (s.blk.rxCnt + 1))
    ∨ (¬ s.FrameEnds b ∧ t.actions = [.tstart] ∧ t.rxfLen = none) := by
  obtain ⟨-, hcnt, ht⟩ := execRxb_next.mp h
  replace ht : t = rxbAdvance (rxbMid b s) := ht
  have hsize : (rxbMid b s).headerSize = s.headerSize := by rw [rxbMid_eq]; rfl
  have hreports : (rxbMid b s).actions ++ [frameAction (rxbMid b s).cmdBytes (rxbMid b s).rxFrame]
      = [.tstart, frameAction s.cmdBytes (s.rxFrame ++ [b])] ∧ (rxbMid b s).blk.rxCnt = s.blk.rxCnt + 1 := by
    rw [rxbMid_rxFrame hcnt, rxbMid_eq]
    exact ⟨rfl, rfl⟩
  have hsilent : (rxbMid b s).actions = [.tstart] ∧ (rxbMid b s).rxfLen = none := by
    rw [rxbMid_eq]
    exact ⟨rfl, rfl⟩
  rw [State.frameEnds_iff hcnt, ← hreports.1, ← hreports.2, ht]
  obtain ⟨hadv, -, hend, hpay⟩ | ⟨hadv, -, hend, hpay⟩ | ⟨hadv, hf, hend⟩ | ⟨hadv, hnh, hnp⟩ :=
    rxbAdvance_cases (rxbMid b s) <;> rw [hadv]
  · have hzero : (rxbMid b s).headerPayLen.toNat = 0 := by rw [hpay]; rfl
    exact .inl ⟨by omega, complete_reports ((rxbMid b s).setPayLen 0)⟩
  · have hne : (rxbMid b s).headerPayLen.toNat ≠ 0 := fun h0 => hpay (BitVec.eq_of_toNat_eq h0)
    exact .inr ⟨by omega, hsilent⟩
  · obtain ⟨hf', -⟩ | ⟨-, hlt, hread⟩ := rxbMid_cases b hs
    · simp [hf] at hf'
    · rw [hread] at hend
      exact .inl ⟨by omega, complete_reports (rxbMid b s)⟩
  · refine .inr ⟨?_, hsilent⟩
    obtain ⟨hf, hle⟩ | ⟨hf, -, hread⟩ := rxbMid_cases b hs
    · have hne : (rxbMid b s).blk.rxCnt.toNat ≠ s.headerSize := fun h0 => hnh ⟨hf, h0.trans hsize.symm⟩
      omega
    · exact fun hends => hnp ⟨hf, by rw [hread, hsize, hends.2]⟩

/-! ### How long a surfaced frame stays (R86, R188) -/

/-- Every operation but `RXB` and `RST` leaves `rxf_len` and `buf` alone (R86, R164). -/
theorem exec_keeps_frame {i : Instr} {s t : State} (hrst : i ≠ .rst) (hrxb : ∀ b, i ≠ .rxb b)
    (h : exec i s = .next t) : t.rxfLen = s.rxfLen ∧ t.cmdBytes = s.cmdBytes ∧ ∀ a, t.byte .buf a = s.byte .buf a := by
  cases i with
  | rst => exact absurd rfl hrst
  | rxb b => exact absurd rfl (hrxb b)
  | tmo =>
    obtain ⟨_, _, _, _, _, _, _, _, _, _, _, rfl⟩ := execTmo_frame h
    exact ⟨rfl, rfl, fun _ => rfl⟩
  | snd m =>
    obtain ⟨-, -, rfl⟩ := execSnd_next.mp h
    split <;> exact ⟨rfl, rfl, fun _ => rfl⟩
  | txb =>
    obtain ⟨-, ht⟩ := execTxb_next.mp h
    split at ht
    · obtain ⟨-, rfl⟩ := ht
      exact ⟨rfl, rfl, fun _ => rfl⟩
    · obtain rfl := ht
      exact ⟨rfl, rfl, fun _ => rfl⟩
  | trn =>
    obtain ⟨-, rfl⟩ := execTrn_next.mp h
    split <;> exact ⟨rfl, rfl, fun _ => rfl⟩

/-- After `RXB` the bytes received and its own stand in `buf` (R100, R101). -/
theorem execRxb_byte {s t : State} {b : Byte} (hcnt : s.blk.rxCnt.toNat < s.bufSize) (h : execRxb b s = .next t)
    {a : Nat} (ha : a ≤ s.blk.rxCnt.toNat) : t.byte .buf a = byteAt (s.rxFrame ++ [b]) a := by
  have hmid : (rxbMid b s).blk.rxCnt.toNat = s.blk.rxCnt.toNat + 1 := by rw [rxbMid_eq]; exact rxCnt_succ hcnt
  rw [← rxbMid_rxFrame hcnt, byteAt_rxFrame (hmid ▸ Nat.lt_succ_of_le ha)]
  obtain ⟨_, _, _, _, _, _, -, rfl⟩ := execRxb_frame h
  exact State.byte_congr (by rw [rxbMid_eq]; rfl) (by rw [rxbMid_eq]) a

theorem outputs_rxrData (a : Count) (s : State) :
    (outputs a s).rxrData = if a.toNat < s.bufSize then some (s.byte .buf a.toNat) else none := rfl

theorem frameAction_eq {c : CmdBytes} {F : List Byte} :
    frameAction c F = if 3 < (byteAt F 0).toNat then .rxerr F else .rxdone F := by
  simp only [frameAction, deserialize_eq_framingError]

/-- Settles O43: the frame surfaced is the bytes received, which stand in `buf` until the next `RXB` or `RST`. -/
theorem surfacedFrameReadable : Obligations.SurfacedFrameReadable := fun s t b F hs h hF => by
  have hcnt := hs.rxCnt_lt
  have hbuf : t.bufSize = s.bufSize := by
    obtain ⟨_, _, _, _, _, _, -, rfl⟩ := execRxb_frame h
    rfl
  obtain ⟨-, hact, hlen⟩ | ⟨-, hact, -⟩ := execRxb_reports hs h
  · obtain rfl : F = s.rxFrame ++ [b] := by
      rw [hact, frameAction] at hF
      split at hF <;> simpa using hF
    have hFlen : (s.rxFrame ++ [b]).length = s.blk.rxCnt.toNat + 1 := by simp [State.rxFrame_length]
    refine ⟨⟨_, fun _ => hlen, (rxCnt_succ hcnt).trans hFlen.symm⟩, fun a ha => ?_, fun i u hrst hrxb hu a => ?_⟩
    · have hle : a.toNat ≤ s.blk.rxCnt.toNat := Nat.le_of_lt_succ (ha.trans_eq hFlen)
      rw [outputs_rxrData, if_pos (hbuf ▸ hle.trans_lt hcnt), execRxb_byte hcnt h hle]
    · obtain ⟨hlen', hcmd, hbyte⟩ := exec_keeps_frame hrst hrxb hu
      have hsize : u.bufSize = t.bufSize := congrArg CmdBytes.bufSize hcmd
      exact ⟨hlen', by rw [outputs_rxrData, outputs_rxrData, hsize, hbyte]⟩
  · simp [hact] at hF

end Sys2Proof.Machine
end

section
/-! PROOF. The actions of a clock cycle, stage by stage (spec R156), and the pulses that show them (R86, R198). -/

namespace Sys2Proof.Machine

/-! ### The receive events (R156 steps 2 and 3) -/

/-- The actions of an `RXB` (R100, R101). -/
def byteActions (b : Byte) (s : State) : List Action :=
  .tstart :: if s.FrameEnds b then [frameAction s.cmdBytes (s.rxFrame ++ [b])] else []

/-- The actions of a `TMO` (R103). -/
def timeoutActions (s : State) : List Action :=
  if s.blk.timerArmed then
    (if s.blk.faState = .idle then [] else [.flush s.blk.rxCnt]) ++ if s.blk.txState = .gap then [.snddone] else []
  else []

/-- The actions of the receive events of a cycle. -/
def receiveActions (p : PortIn) (s : State) : List Action :=
  if p.rxValid then byteActions p.rxData s else if p.tmrFired then timeoutActions s else []

theorem execTmo_actions {s t : State} (h : execTmo s = .next t) : t.actions = timeoutActions s := by
  obtain ⟨-, rfl⟩ := execTmo_next.mp h
  unfold timeoutActions
  split
  · rw [tmoRelease_actions, tmoFlush_actions, tmoFlush_txState]
    rfl
  · rfl

theorem receive_reports {p : PortIn} {s t : State} (hs : s.Inv) (h : performAll (receiveOps p) s = .next t) :
    t.actions = receiveActions p s ∧ (p.rxValid = true → s.FrameEnds p.rxData → t.rxfLen = some (s.blk.rxCnt + 1)) := by
  unfold receiveOps at h
  unfold receiveActions
  split at h
  · next hv =>
    rw [performAll_singleton] at h
    rw [if_pos hv, byteActions]
    obtain ⟨hends, hact, hlen⟩ | ⟨hends, hact, -⟩ := execRxb_reports hs h
    · rw [if_pos hends]
      exact ⟨hact, fun _ _ => hlen⟩
    · rw [if_neg hends]
      exact ⟨hact, fun _ he => absurd he hends⟩
  · next hv =>
    rw [if_neg hv]
    refine ⟨?_, fun hv' => absurd hv' hv⟩
    split at h
    · next hf =>
      rw [performAll_singleton] at h
      rw [if_pos hf, execTmo_actions h]
    · next hf =>
      obtain rfl := performAll_nil.mp h
      rw [if_neg hf]

/-! ### What is due of a send (R122, R123) -/

/-- The flush leaves what is due of a send as it is. -/
theorem tmoFlush_guards (s : State) :
    (tmoFlush s).txEnabled = s.txEnabled ∧ (tmoFlush s).trnEnabled = s.trnEnabled := by
  obtain ⟨-, h⟩ | ⟨-, h⟩ := tmoFlush_cases s <;> rw [h] <;> exact ⟨rfl, rfl⟩

/-- Outside Sending nothing is due, and the release leaves a Sending send alone (R103). -/
theorem tmoRelease_guards (s : State) :
    (tmoRelease s).txEnabled = s.txEnabled ∧ (tmoRelease s).trnEnabled = s.trnEnabled := by
  obtain ⟨-, h⟩ | ⟨hts, h⟩ | ⟨hts, h⟩ := tmoRelease_cases s <;> rw [h]
  · exact ⟨rfl, rfl⟩
  all_goals simp [State.txEnabled, State.trnEnabled, hts]

/-- A receive event leaves what is due of a send as it is (R103, R164). -/
theorem receive_guards {p : PortIn} {s t : State} (h : performAll (receiveOps p) s = .next t) :
    t.txEnabled = s.txEnabled ∧ t.trnEnabled = s.trnEnabled := by
  unfold receiveOps at h
  split at h
  · rw [performAll_singleton] at h
    obtain ⟨_, _, _, _, _, _, -, rfl⟩ := execRxb_frame h
    exact ⟨rfl, rfl⟩
  · split at h
    · rw [performAll_singleton] at h
      obtain ⟨-, rfl⟩ := execTmo_next.mp h
      split
      · rw [(tmoRelease_guards _).1, (tmoRelease_guards _).2, (tmoFlush_guards _).1, (tmoFlush_guards _).2]
        exact ⟨rfl, rfl⟩
      · exact ⟨rfl, rfl⟩
    · obtain rfl := performAll_nil.mp h
      exact ⟨rfl, rfl⟩

/-! ### The transmit events (R156 steps 4 and 5) -/

/-- The actions of the transmit events of a cycle (R122, R123). -/
def transmitActions (p : PortIn) (s : State) : List Action :=
  if s.trnEnabled then [.dir .receive, .tstart] else if s.txEnabled && p.txReady then [.tx s.txByte] else []

/-- The sink's byte and the turnaround are never both due. -/
theorem State.txEnabled_of_trnEnabled {s : State} (h : s.trnEnabled = true) : s.txEnabled = false := by
  obtain ⟨-, hall⟩ := State.trnEnabled_iff.mp h
  simp [State.txEnabled, hall]

theorem transmitOps_eq (p : PortIn) (s : State) :
    transmitOps p s = if s.trnEnabled then [.trn] else if s.txEnabled && p.txReady then [.txb] else [] := by
  unfold transmitOps
  by_cases hdue : s.trnEnabled = true
  · simp [hdue, State.txEnabled_of_trnEnabled hdue]
  · simp [hdue]

theorem transmit_reports {p : PortIn} {s t : State} (h : performAll (transmitOps p s) s = .next t) :
    t.actions = transmitActions p s ∧ t.rxfLen = s.rxfLen := by
  rw [transmitOps_eq] at h
  unfold transmitActions
  split at h
  · next hdue =>
    rw [performAll_singleton] at h
    obtain ⟨-, rfl⟩ := execTrn_next.mp h
    rw [if_pos hdue, if_pos hdue]
    exact ⟨rfl, rfl⟩
  · next hdue =>
    rw [if_neg hdue]
    split at h
    · next htx =>
      rw [performAll_singleton] at h
      obtain ⟨-, ht⟩ := execTxb_next.mp h
      simp only [Bool.and_eq_true] at htx
      rw [if_pos htx.1] at ht
      obtain ⟨-, rfl⟩ := ht
      exact ⟨by simp [htx], rfl⟩
    · next htx =>
      obtain rfl := performAll_nil.mp h
      rw [if_neg htx]
      exact ⟨rfl, rfl⟩

/-! ### The request (R156 step 6) -/

/-- The actions of a request, by the outcome word it ended with (R121). -/
def requestActions (p : PortIn) (t : State) : List Action :=
  if p.sndReq = true ∧ t.outcomes.getLast? = some .performed then [.dir .transmit] else []

/-- A request that is answered is held, or performed with one action (R121). -/
theorem grantSend_reports {m : Option Message} {t v : State} (h : grantSend m t = .next v) :
    v.rxfLen = t.rxfLen
      ∧ (v.outcomes.getLast? = some .held ∧ v.actions = t.actions
        ∨ v.outcomes.getLast? = some .performed ∧ v.actions = t.actions ++ [.dir .transmit]) := by
  obtain ⟨-, rfl⟩ | ⟨hlock, m', -, u, hu, rfl⟩ := grantSend_next.mp h
  · exact ⟨rfl, .inl ⟨by simp, rfl⟩⟩
  · obtain ⟨-, -, rfl⟩ := execSnd_next.mp hu
    rw [hlock]
    exact ⟨rfl, .inr ⟨by simp [sndBegin], rfl⟩⟩

/-! ### The cycle -/

/-- A cycle without `rst` in its stages; each takes up the state the one before left. -/
theorem clockCycle_stages {p : PortIn} {s t : State} (hrst : p.rst = false) (h : clockCycle p s = .next t) :
    ∃ u v, performAll (receiveOps p) (s.openCycle p) = .next u ∧ performAll (transmitOps p u) u = .next v
      ∧ (if p.sndReq then grantSend (s.requestedMessage p) (u.reportsAfter v) else .next (u.reportsAfter v))
        = .next t := by
  rw [clockCycle_next, hrst, if_neg (by simp)] at h
  obtain ⟨w, hw, ht⟩ := runCycle_next.mp h.2
  obtain ⟨u, v, hu, hv, rfl⟩ := performAll_append.mp hw
  obtain ⟨htx, htrn⟩ := receive_guards hu
  have hops : transmitOps p u = transmitOps p s := by
    rw [transmitOps_eq, htx, htrn, ← transmitOps_eq, State.openCycle, State.stage_eq]
    rfl
  exact ⟨u, v, hu, hops ▸ hv, ht⟩

/-- What is staged is neither received nor due. -/
theorem State.openCycle_frame (p : PortIn) (s : State) :
    receiveActions p (s.openCycle p) = receiveActions p s ∧ (s.openCycle p).trnEnabled = s.trnEnabled
      ∧ (s.openCycle p).blk.rxCnt = s.blk.rxCnt ∧ ∀ b, (s.openCycle p).FrameEnds b = s.FrameEnds b := by
  rw [State.openCycle, State.stage_eq]
  exact ⟨rfl, rfl, rfl, fun _ => rfl⟩

/-- The actions of a cycle: those of its receive events, of its transmit events, of its request. -/
theorem clockCycle_reports {p : PortIn} {s t : State} (hs : s.Inv) (hrst : p.rst = false)
    (h : clockCycle p s = .next t) :
    (∃ u, u.trnEnabled = s.trnEnabled
      ∧ t.actions = receiveActions p s ++ (transmitActions p u ++ requestActions p t))
    ∧ (p.rxValid = true → s.FrameEnds p.rxData → t.rxfLen = some (s.blk.rxCnt + 1)) := by
  obtain ⟨u, v, hu, hv, ht⟩ := clockCycle_stages hrst h
  obtain ⟨hreceive, hdue, hcnt, hends⟩ := s.openCycle_frame p
  obtain ⟨hact, hlen⟩ := receive_reports (s.openCycle_inv p hs) hu
  obtain ⟨hact', hlen'⟩ := transmit_reports hv
  rw [hreceive] at hact
  rw [hcnt, hends] at hlen
  suffices hlast : t.rxfLen = v.rxfLen ∧ t.actions = u.actions ++ v.actions ++ requestActions p t from
    ⟨⟨u, (receive_guards hu).2.trans hdue, by rw [hlast.2, hact, hact', List.append_assoc]⟩,
      fun hv he => (hlast.1.trans hlen').trans (hlen hv he)⟩
  unfold requestActions
  cases hreq : p.sndReq with
  | false =>
    obtain rfl := next_eq_next.mp (by simpa [hreq] using ht)
    exact ⟨rfl, by simp⟩
  | true =>
    rw [hreq] at ht
    obtain ⟨hlen'', ⟨hword, hact''⟩ | ⟨hword, hact''⟩⟩ := grantSend_reports ht
    · exact ⟨hlen'', by simp [hword, hact'']⟩
    · exact ⟨hlen'', by simp [hword, hact'']⟩

theorem clockCycle_rst_actions {p : PortIn} {s t : State} (hrst : p.rst = true) (h : clockCycle p s = .next t) :
    t.actions = [.tcancel, .dir .receive] := by
  rw [clockCycle_next, hrst, if_pos rfl] at h
  obtain rfl := execRst_next.mp h
  rfl

/-! ### Which actions a stage has -/

theorem completes_frameAction (c : CmdBytes) (F : List Byte) : (frameAction c F).completes = true := by
  unfold frameAction
  split <;> rfl

/-- Apart from the frame handed over, a received byte only starts the timer (R100). -/
theorem mem_byteActions {a : Action} {b : Byte} {s : State} (ha : a.completes = false) :
    a ∈ byteActions b s ↔ a = .tstart := by
  have hne : a ≠ frameAction s.cmdBytes (s.rxFrame ++ [b]) := fun h => by
    rw [h, completes_frameAction] at ha
    cases ha
  unfold byteActions
  split <;> simp [hne]

theorem mem_timeoutActions {a : Action} {s : State} :
    a ∈ timeoutActions s ↔ s.blk.timerArmed = true
      ∧ (s.blk.faState ≠ .idle ∧ a = .flush s.blk.rxCnt ∨ s.blk.txState = .gap ∧ a = .snddone) := by
  unfold timeoutActions
  split
  · next harm => simp [harm]
  · next harm => simp [harm]

theorem mem_receiveActions {p : PortIn} {s : State} {a : Action} (ha : a.completes = false) :
    a ∈ receiveActions p s ↔ p.rxValid = true ∧ a = .tstart
      ∨ p.rxValid = false ∧ p.tmrFired = true ∧ a ∈ timeoutActions s := by
  unfold receiveActions
  split
  · next hv => simp [hv, mem_byteActions ha]
  · next hv => cases hf : p.tmrFired <;> simp [hv]

theorem mem_transmitActions {p : PortIn} {s : State} {a : Action} (ha : ∀ b, a ≠ .tx b) :
    a ∈ transmitActions p s ↔ s.trnEnabled = true ∧ (a = .dir .receive ∨ a = .tstart) := by
  unfold transmitActions
  split
  · next hdue => simp [hdue]
  · next hdue => split <;> simp [hdue, ha]

theorem mem_requestActions {p : PortIn} {t : State} {a : Action} :
    a ∈ requestActions p t ↔ (p.sndReq = true ∧ t.outcomes.getLast? = some .performed) ∧ a = .dir .transmit := by
  unfold requestActions
  split
  · next hreq => simp [hreq]
  · next hreq => simp [hreq]

/-- The actions of a cycle without `rst` that neither hand a frame over nor a byte to the sink. -/
theorem mem_clockCycle_actions {p : PortIn} {s t : State} {a : Action} (hs : s.Inv) (hrst : p.rst = false)
    (h : clockCycle p s = .next t) (ha : a.completes = false) (ha' : ∀ b, a ≠ .tx b) :
    a ∈ t.actions ↔
      (p.rxValid = true ∧ a = .tstart ∨ p.rxValid = false ∧ p.tmrFired = true ∧ a ∈ timeoutActions s)
      ∨ (s.trnEnabled = true ∧ (a = .dir .receive ∨ a = .tstart))
      ∨ (p.sndReq = true ∧ t.outcomes.getLast? = some .performed) ∧ a = .dir .transmit := by
  obtain ⟨⟨u, hdue, hact⟩, -⟩ := clockCycle_reports hs hrst h
  rw [hact, List.mem_append, List.mem_append, mem_receiveActions ha, mem_transmitActions ha', mem_requestActions, hdue]

/-! ### The pulses of frames and timeouts (R86) -/

theorem frameAction_rxfErr (c : CmdBytes) (F : List Byte) :
    (frameAction c F).rxfErr? = some (decide (3 < (byteAt F 0).toNat)) := by
  rw [frameAction_eq]
  split
  · next h => simp [Action.rxfErr?, h]
  · next h => simp [Action.rxfErr?, h]

/-- What reads nothing from the actions of a send reads from a cycle's what it reads from its receive events. -/
theorem clockCycle_findSome {α : Type} {f : Action → Option α} {p : PortIn} {s t : State} (hs : s.Inv)
    (hrst : p.rst = false) (h : clockCycle p s = .next t) (hstart : f .tstart = none) (hdir : ∀ d, f (.dir d) = none)
    (htx : ∀ b, f (.tx b) = none) : t.actions.findSome? f = (receiveActions p s).findSome? f := by
  obtain ⟨⟨u, -, hact⟩, -⟩ := clockCycle_reports hs hrst h
  have hsend : (transmitActions p u ++ requestActions p t).findSome? f = none := by
    unfold transmitActions requestActions
    split_ifs <;> simp [hstart, hdir, htx]
  rw [hact, List.findSome?_append, hsend, Option.or_none]

/-- The frame of a received byte shows in `rxf_err`, if the byte ends it (R86, R101). -/
theorem receiveActions_rxfErr (p : PortIn) (s : State) :
    (receiveActions p s).findSome? Action.rxfErr? = if p.rxValid = true ∧ s.FrameEnds p.rxData
      then some (decide (3 < (byteAt (s.rxFrame ++ [p.rxData]) 0).toNat)) else none := by
  have htimeout : (timeoutActions s).findSome? Action.rxfErr? = none := by
    unfold timeoutActions
    split_ifs <;> rfl
  unfold receiveActions
  split
  · next hv =>
    unfold byteActions
    by_cases hends : s.FrameEnds p.rxData
    · rw [if_pos hends, if_pos ⟨hv, hends⟩, ← frameAction_rxfErr s.cmdBytes]
      exact List.findSome?_singleton
    · rw [if_neg hends, if_neg fun hc => hends hc.2]
      rfl
  · next hv =>
    rw [if_neg fun hc : p.rxValid = true ∧ s.FrameEnds p.rxData => hv hc.1]
    split
    · exact htimeout
    · rfl

theorem timeoutActions_flushLen (s : State) :
    (timeoutActions s).findSome? Action.flushLen?
      = if s.blk.timerArmed = true ∧ s.blk.faState ≠ .idle then some s.blk.rxCnt else none := by
  have hdone : (if s.blk.txState = .gap then [Action.snddone] else []).findSome? Action.flushLen? = none := by
    split <;> rfl
  unfold timeoutActions
  by_cases harm : s.blk.timerArmed = true
  · by_cases hfa : s.blk.faState = .idle
    · simp [harm, hfa, hdone]
    · simp [harm, hfa, List.findSome?_cons, Action.flushLen?]
  · simp [harm]

/-- The frame a timer event abandons shows in `flush_len` (R86, R103). -/
theorem receiveActions_flushLen (p : PortIn) (s : State) :
    (receiveActions p s).findSome? Action.flushLen? = if p.rxValid = false ∧ p.tmrFired = true
      ∧ s.blk.timerArmed = true ∧ s.blk.faState ≠ .idle then some s.blk.rxCnt else none := by
  have hbyte : (byteActions p.rxData s).findSome? Action.flushLen? = none := by
    unfold byteActions frameAction
    split_ifs <;> rfl
  unfold receiveActions
  cases hv : p.rxValid with
  | true => simpa using hbyte
  | false =>
    cases hf : p.tmrFired with
    | false => rfl
    | true => simpa using timeoutActions_flushLen s

/-! ### The obligations -/

/-- Settles O41: a request emits `DIR(Transmit)` exactly when it is performed, and a Gap, whose timer runs, ends with
the `TMO`. -/
theorem sendPulses : Obligations.SendPulses := fun p s t a hs h => by
  have hgap : s.blk.txState = .gap → s.blk.timerArmed = true := by
    obtain ⟨-, ⟨-, -, -, hgap⟩, -⟩ := hs
    exact hgap
  simp only [outputs, List.contains_iff_mem]
  cases hrst : p.rst with
  | true => simp [clockCycle_rst_actions hrst h]
  | false =>
    rw [mem_clockCycle_actions hs hrst h rfl (by simp), mem_clockCycle_actions hs hrst h rfl (by simp)]
    refine ⟨by simp [mem_timeoutActions], ?_⟩
    simpa [mem_timeoutActions] using fun _ _ => hgap

/-- Settles O42, pulse by pulse. -/
theorem timerAndFramePulses : Obligations.TimerAndFramePulses := fun p s t a hs h => by
  simp only [outputs, List.contains_iff_mem]
  cases hrst : p.rst with
  | true => simp [clockCycle_rst_actions hrst h, Action.rxfErr?, Action.flushLen?]
  | false =>
    obtain ⟨-, hlen⟩ := clockCycle_reports hs hrst h
    rw [mem_clockCycle_actions hs hrst h rfl (by simp), mem_clockCycle_actions hs hrst h rfl (by simp),
      clockCycle_findSome hs hrst h rfl (fun _ => rfl) (fun _ => rfl), receiveActions_rxfErr,
      clockCycle_findSome hs hrst h rfl (fun _ => rfl) (fun _ => rfl), receiveActions_flushLen]
    refine ⟨by simp [mem_timeoutActions], by simp [mem_timeoutActions],
      Option.isSome_ite.trans (and_iff_right rfl).symm, fun hvalid => ?_, by simp, fun hflush => ?_,
      by simp, by simp⟩
    · split at hvalid
      · next hc => exact ⟨if_pos hc, hlen hc.1 hc.2, rxCnt_succ hs.rxCnt_lt⟩
      · simp at hvalid
    · split at hflush
      · next hc => exact if_pos hc
      · simp at hflush

end Sys2Proof.Machine
end

section
/-! PROOF. What `RXB` and `TMO` do to the registers (spec R100 to R106), and when a frame, a framing error or
a timeout is reported (R101, R150 to R152). -/

namespace Sys2Proof.Machine

/-! ### RXB (R100, R101, R104) -/

/-- The tests of `RXB` hand the frame over and clear the counter, or do neither. -/
theorem rxbAdvance_rxCnt (s : State) :
    ((rxbAdvance s).actions = s.actions ∧ (rxbAdvance s).blk.rxCnt = s.blk.rxCnt)
    ∨ ((rxbAdvance s).actions ≠ s.actions ∧ (rxbAdvance s).blk.rxCnt = 0) := by
  obtain ⟨h, -⟩ | ⟨h, -⟩ | ⟨h, -⟩ | ⟨h, -⟩ := rxbAdvance_cases s <;> rw [h]
  · exact .inr (by simp [complete_eq])
  · exact .inl ⟨rfl, rfl⟩
  · exact .inr (by simp [complete_eq])
  · exact .inl ⟨rfl, rfl⟩

/-- The byte that ends a frame clears the counter, and any other is counted. -/
theorem execRxb_rxCnt {s t : State} {b : Byte} (hs : s.Inv) (h : execRxb b s = .next t) :
    t.blk.rxCnt = if s.FrameEnds b then 0 else s.blk.rxCnt + 1 := by
  obtain ⟨-, -, ht⟩ := execRxb_next.mp h
  replace ht : t = rxbAdvance (rxbMid b s) := ht
  have hmid : (rxbMid b s).actions = [.tstart] ∧ (rxbMid b s).blk.rxCnt = s.blk.rxCnt + 1 := by
    rw [rxbMid_eq]
    exact ⟨rfl, rfl⟩
  have hadv := rxbAdvance_rxCnt (rxbMid b s)
  rw [← ht, hmid.1, hmid.2] at hadv
  obtain ⟨hends, hact, -⟩ | ⟨hends, hact, -⟩ := execRxb_reports hs h
  · rw [if_pos hends]
    simpa [hact] using hadv
  · rw [if_neg hends]
    simpa [hact] using hadv

/-- The flags and the buffer after `RXB`, whatever its byte does to the frame (R100). -/
theorem execRxb_flags {s t : State} {b : Byte} (h : execRxb b s = .next t) :
    t.outcomes = [.performed] ∧ t.blk.txLock = true ∧ t.blk.timerArmed = true ∧ t.blk.dir = s.blk.dir
      ∧ t.byte .buf s.blk.rxCnt.toNat = b := by
  obtain ⟨_, _, _, _, _, _, -, rfl⟩ := execRxb_frame h
  exact ⟨rfl, rfl, rfl, rfl, State.append_byte_new b s⟩

/-- The end of a frame, read from the registers before the byte: the byte itself is the `payload_size` if it ends the
header, and `pay_len` holds it after that (R100). -/
theorem State.frameEnds_iff_registers {s : State} {b : Byte} (hs : s.Inv) :
    s.FrameEnds b ↔ (s.blk.rxCnt.toNat + 1 = s.headerSize ∧ b = 0)
      ∨ (s.blk.faState = .payloadPartial ∧ s.blk.rxCnt.toNat + 1 = s.headerSize + s.blk.payLen.toNat) := by
  have hH : 7 ≤ s.headerSize := s.cmdBytes.headerSize_bounds.1
  have hcnt : (rxbMid b s).blk.rxCnt.toNat = s.blk.rxCnt.toNat + 1 := by rw [rxbMid_eq]; exact rxCnt_succ hs.rxCnt_lt
  have hsize : (rxbMid b s).headerSize = s.headerSize := by rw [rxbMid_eq]; rfl
  have hb : b = 0 ↔ b.toNat = 0 := BitVec.toNat_inj.symm
  rw [State.frameEnds_iff hs.rxCnt_lt, hcnt, State.headerPayLen, hsize, rxbMid_byte, hb]
  obtain ⟨hshape, -⟩ := hs
  obtain ⟨hf, hc, -⟩ | ⟨hf, -, hc, -⟩ | ⟨hf, hlo, -, hp⟩ := State.assemblerShape_iff.mp hshape
  · simp [hf, hc]
    omega
  · simp only [hf, reduceCtorEq, false_and, or_false]
    split <;> omega
  · rw [if_neg (by omega), hp, State.headerPayLen]
    simp only [hf, true_and]
    omega

/-- The assembler's registers by its counter (R37). -/
theorem State.Inv.assembler_of_rxCnt {s : State} (hs : s.Inv) :
    (s.blk.rxCnt = 0 → s.blk.faState = .idle ∧ s.blk.payLen = 0)
    ∧ (0 < s.blk.rxCnt.toNat → s.blk.rxCnt.toNat < s.headerSize → s.blk.faState = .headerPartial ∧ s.blk.payLen = 0)
    ∧ (s.headerSize ≤ s.blk.rxCnt.toNat → s.blk.faState = .payloadPartial ∧ s.blk.payLen = s.headerPayLen) := by
  have hH : 7 ≤ s.headerSize := s.cmdBytes.headerSize_bounds.1
  obtain ⟨hshape, -⟩ := hs
  obtain ⟨hf, hc, hp⟩ | ⟨hf, hpos, hc, hp⟩ | ⟨hf, hlo, -, hp⟩ := State.assemblerShape_iff.mp hshape
  · exact ⟨fun _ => ⟨hf, hp⟩, fun hpos => by simp [hc] at hpos, fun hlo => by simp [hc] at hlo; omega⟩
  · exact ⟨fun h0 => by simp [h0] at hpos, fun _ _ => ⟨hf, hp⟩, fun hlo => by omega⟩
  · exact ⟨fun h0 => by simp [h0] at hlo; omega, fun _ hlt => by omega, fun _ => ⟨hf, hp⟩⟩

/-- The `payload_size` byte after `RXB`: the byte itself if it ends the header, else the one received before (R55). -/
theorem execRxb_headerPayLen {s t : State} {b : Byte} (h : execRxb b s = .next t) :
    t.headerPayLen = if s.blk.rxCnt.toNat + 1 = s.headerSize then b else s.headerPayLen := by
  have hH : 7 ≤ s.headerSize := s.cmdBytes.headerSize_bounds.1
  have hsize : t.headerSize = s.headerSize := congrArg CmdBytes.headerSize (exec_keeps_config (i := .rxb b) h).1
  obtain ⟨-, -, -, -, hbyte⟩ := execRxb_flags h
  rw [State.headerPayLen, hsize]
  split
  · next hlast => rwa [← hlast, Nat.add_sub_cancel]
  · next hlater =>
    obtain ⟨-, hother, -⟩ := rxbFrame s t b h
    exact hother _ (by omega)

/-- The registers after a byte that does not end its frame (R100, R104). -/
theorem execRxb_registers_of_not_frameEnds {s t : State} {b : Byte} (hs : s.Inv) (h : execRxb b s = .next t)
    (hends : ¬ s.FrameEnds b) :
    t.blk.rxCnt.toNat = s.blk.rxCnt.toNat + 1
      ∧ if s.blk.rxCnt.toNat + 1 < s.headerSize then t.blk.faState = .headerPartial ∧ t.blk.payLen = 0
        else if s.blk.rxCnt.toNat + 1 = s.headerSize then t.blk.faState = .payloadPartial ∧ t.blk.payLen = b
        else t.blk.faState = .payloadPartial ∧ t.blk.payLen = s.blk.payLen := by
  have hsize : t.headerSize = s.headerSize := congrArg CmdBytes.headerSize (exec_keeps_config (i := .rxb b) h).1
  have hsucc : t.blk.rxCnt.toNat = s.blk.rxCnt.toNat + 1 := by
    rw [execRxb_rxCnt hs h, if_neg hends]
    exact rxCnt_succ hs.rxCnt_lt
  obtain ⟨-, hheader, hpayload⟩ := (exec_inv (i := .rxb b) hs h).assembler_of_rxCnt
  obtain ⟨-, -, hread⟩ := hs.assembler_of_rxCnt
  rw [hsucc, hsize] at hheader hpayload
  refine ⟨hsucc, ?_⟩
  split
  · next hlt => exact hheader (Nat.succ_pos _) hlt
  · next hge =>
    obtain ⟨hfa, hpay⟩ := hpayload (Nat.le_of_not_lt hge)
    rw [execRxb_headerPayLen h] at hpay
    split
    · next hlast => exact ⟨hfa, by rwa [if_pos hlast] at hpay⟩
    · next hlater => exact ⟨hfa, by rwa [if_neg hlater, ← (hread (by omega)).2] at hpay⟩

/-- The registers after the byte that ends its frame (R101). -/
theorem execRxb_registers_of_frameEnds {s t : State} {b : Byte} (hs : s.Inv) (h : execRxb b s = .next t)
    (hends : s.FrameEnds b) : t.blk.faState = .idle ∧ t.blk.rxCnt = 0 ∧ t.blk.payLen = 0 := by
  have hzero : t.blk.rxCnt = 0 := (execRxb_rxCnt hs h).trans (if_pos hends)
  obtain ⟨hidle, -⟩ := (exec_inv (i := .rxb b) hs h).assembler_of_rxCnt
  obtain ⟨hfa, hpay⟩ := hidle hzero
  exact ⟨hfa, hzero, hpay⟩

/-- Settles O5: the byte ends its frame, or it is counted. -/
theorem rxbFollowsPseudocode : Obligations.RxbFollowsPseudocode := fun s b hs hstart => by
  obtain ⟨t, h⟩ := exec_answers (i := .rxb b) hs hstart rfl
  obtain ⟨hword, hlock, harm, hdir, hbyte⟩ := execRxb_flags h
  refine ⟨t, h, hword, hlock, harm, hdir, hbyte, ?_⟩
  simp only [← State.frameEnds_iff_registers hs]
  obtain ⟨hends, hact, -⟩ | ⟨hends, hact, -⟩ := execRxb_reports hs h
  · rw [if_pos hends]
    obtain ⟨hfa, hcnt, hpay⟩ := execRxb_registers_of_frameEnds hs h hends
    exact ⟨hfa, hcnt, hpay, hact⟩
  · rw [if_neg hends]
    obtain ⟨hcnt, hassembler⟩ := execRxb_registers_of_not_frameEnds hs h hends
    exact ⟨hcnt, hact, hassembler⟩

/-! ### TMO (R103) -/

/-- The assembler's share: a frame in progress is given up. -/
def Block.flushed (k : Block) : Block :=
  { k with
    faState := .idle
    rxCnt := if k.faState = .idle then k.rxCnt else 0
    payLen := if k.faState = .idle then k.payLen else 0 }

/-- The arbiter's share: the lock is released, but not while a local send is pushing bytes (D10). -/
def Block.released (k : Block) : Block :=
  if k.txState = .sending then k else { k with txLock := false, txState := .txIdle, txLen := 0, txIdx := 0 }

theorem tmoFlush_blk (s : State) : (tmoFlush s).blk = s.blk.flushed := by
  obtain ⟨hfa, h⟩ | ⟨hfa, h⟩ := tmoFlush_cases s
  · simp [h, Block.flushed, ← hfa]
  · simp [h, Block.flushed, hfa]

theorem tmoRelease_blk (s : State) : (tmoRelease s).blk = s.blk.released := by
  obtain ⟨hts, h⟩ | ⟨hts, h⟩ | ⟨hts, h⟩ := tmoRelease_cases s <;> simp [h, Block.released, hts]

theorem execTmo_of_armed {s t : State} (harm : s.blk.timerArmed = true) (h : execTmo s = .next t) :
    t.outcomes = [.performed] ∧ t.blk = { s.blk with timerArmed := false }.flushed.released := by
  obtain ⟨-, rfl⟩ := execTmo_next.mp h
  rw [if_pos harm]
  constructor
  · obtain ⟨_, _, _, _, _, hrelease⟩ := tmoRelease_frame (tmoFlush (s.attempt .performed).timerFired)
    obtain ⟨_, _, _, _, hflush⟩ := tmoFlush_frame (s.attempt .performed).timerFired
    rw [hrelease, hflush]
    rfl
  · rw [tmoRelease_blk, tmoFlush_blk]
    rfl

/-- Settles O8: the registers and the actions of the two shares, in each of the four cases of R103. -/
theorem tmoFollowsFourCases : Obligations.TmoFollowsFourCases := fun s hstart => by
  refine ⟨fun harm => execTmo_next.mpr ⟨hstart, by simp [harm]; rfl⟩, fun harm => ?_⟩
  obtain ⟨t, h⟩ : ∃ t, exec .tmo s = .next t := ⟨_, execTmo_next.mpr ⟨hstart, rfl⟩⟩
  obtain ⟨hword, hblk⟩ := execTmo_of_armed harm h
  have hact := execTmo_actions h
  rw [timeoutActions, if_pos harm] at hact
  refine ⟨t, h, hword, ?_⟩
  rw [hact, hblk, Block.released, Block.flushed]
  by_cases hts : s.blk.txState = .sending
  · by_cases hfa : s.blk.faState = .idle
    · simp [hts, hfa]
    · simp [hts, hfa]
  · by_cases hfa : s.blk.faState = .idle
    · simp [hts, hfa]
    · simp [hts, hfa]

/-! ### The gap after a frame (R106) -/

/-- Settles O7: the lock set by the frame's last byte holds a send back until the `TMO`, which finds no frame in
progress. -/
theorem completedFrameHoldsLockForGap : Obligations.CompletedFrameHoldsLockForGap := fun s t b m hs h hdone => by
  have hinv := exec_inv hs h
  obtain ⟨-, hstart, -⟩ := exec_keeps_config h
  obtain ⟨-, hlock, harm, -⟩ := execRxb_flags h
  have hends : s.FrameEnds b := by
    obtain ⟨hends, -⟩ | ⟨-, hact, -⟩ := execRxb_reports hs h
    · exact hends
    · rw [hact] at hdone
      exact absurd rfl hdone
  obtain ⟨hfa, -⟩ := execRxb_registers_of_frameEnds hs h hends
  refine ⟨hfa, hlock, harm, fun hm => execSnd_next.mpr ⟨hstart, hm, by rw [if_pos hlock]; rfl⟩, fun hts => ?_⟩
  obtain ⟨u, hu⟩ : ∃ u, exec .tmo t = .next u := ⟨_, execTmo_next.mpr ⟨hstart, rfl⟩⟩
  obtain ⟨-, hblk⟩ := execTmo_of_armed harm hu
  have hfree : u.blk.txLock = false := by simp [hblk, Block.released, Block.flushed, hts]
  exact ⟨u, hu, by simp [execTmo_actions hu, timeoutActions, hfa, hts],
    State.quiescent_of_lock_free (exec_inv hinv hu) hfree⟩

/-! ### Reports (R101, R150 to R152) -/

/-- The actions that report what became of received bytes: a frame, a framing error or a flush. -/
def Action.isReport (a : Action) : Bool := a.completes || a.flushLen?.isSome

/-- What an operation reports of the bytes received (R101, R103). -/
def receptionReports : Instr → State → List Action
  | .rxb b, s => if s.FrameEnds b then [frameAction s.cmdBytes (s.rxFrame ++ [b])] else []
  | .tmo, s => if s.blk.timerArmed = true ∧ s.blk.faState ≠ .idle then [.flush s.blk.rxCnt] else []
  | .rst, _ => []
  | .snd _, _ => []
  | .txb, _ => []
  | .trn, _ => []

theorem timeoutActions_reports (s : State) :
    (timeoutActions s).filter Action.isReport
      = if s.blk.timerArmed = true ∧ s.blk.faState ≠ .idle then [.flush s.blk.rxCnt] else [] := by
  have hdone : (if s.blk.txState = .gap then [Action.snddone] else []).filter Action.isReport = [] := by
    split <;> rfl
  unfold timeoutActions
  by_cases harm : s.blk.timerArmed = true
  · by_cases hfa : s.blk.faState = .idle
    · simp [harm, hfa, hdone]
    · simp [harm, hfa, hdone, Action.isReport, Action.flushLen?]
  · simp [harm]

theorem exec_reports {i : Instr} {s t : State} (hs : s.Inv) (h : exec i s = .next t) :
    t.actions.filter Action.isReport = receptionReports i s := by
  cases i with
  | rst =>
    obtain rfl := execRst_next.mp h
    rfl
  | rxb b =>
    have hframe : (frameAction s.cmdBytes (s.rxFrame ++ [b])).isReport = true := by
      simp [Action.isReport, completes_frameAction]
    rw [receptionReports]
    obtain ⟨hends, hact, -⟩ | ⟨hends, hact, -⟩ := execRxb_reports hs h
    · rw [if_pos hends, hact, List.filter_cons_of_neg (by decide), List.filter_cons_of_pos hframe, List.filter_nil]
    · rw [if_neg hends, hact]
      rfl
  | tmo => rw [execTmo_actions h, timeoutActions_reports, receptionReports]
  | snd m =>
    obtain ⟨-, -, rfl⟩ := execSnd_next.mp h
    split <;> rfl
  | txb =>
    obtain ⟨-, ht⟩ := execTxb_next.mp h
    split at ht
    · obtain ⟨-, rfl⟩ := ht
      rfl
    · obtain rfl := ht
      rfl
  | trn =>
    obtain ⟨-, rfl⟩ := execTrn_next.mp h
    split <;> rfl

/-- A report is among the actions exactly where the operation makes it. -/
theorem mem_actions_iff {i : Instr} {s t : State} {a : Action} (hs : s.Inv) (h : exec i s = .next t)
    (ha : a.isReport = true) : a ∈ t.actions ↔ a ∈ receptionReports i s := by
  rw [← exec_reports hs h, List.mem_filter, and_iff_left ha]

theorem mem_receptionReports {i : Instr} {s : State} {a : Action} :
    a ∈ receptionReports i s ↔
      (∃ b, i = .rxb b ∧ s.FrameEnds b ∧ a = frameAction s.cmdBytes (s.rxFrame ++ [b]))
      ∨ (i = .tmo ∧ s.blk.timerArmed = true ∧ s.blk.faState ≠ .idle ∧ a = .flush s.blk.rxCnt) := by
  cases i with
  | rxb b => simp [receptionReports]
  | tmo => simp [receptionReports, and_assoc]
  | _ => simp [receptionReports]

theorem receptionReports_length (i : Instr) (s : State) : (receptionReports i s).length ≤ 1 := by
  cases i with
  | rxb b => rw [receptionReports]; split <;> simp
  | tmo => rw [receptionReports]; split <;> simp
  | _ => exact Nat.zero_le 1

/-- The action that hands a frame over names it, and tells a FramingError by its first byte (R101, R151). -/
theorem rxerr_eq_frameAction {c : CmdBytes} {F G : List Byte} :
    .rxerr F = frameAction c G ↔ 3 < (byteAt F 0).toNat ∧ F = G := by
  rw [frameAction_eq]
  split
  · next htag => exact ⟨fun he => by cases he; exact ⟨htag, rfl⟩, fun he => by rw [he.2]⟩
  · next htag => exact ⟨fun he => (by cases he), fun he => absurd (he.2 ▸ he.1) htag⟩

theorem rxdone_eq_frameAction {c : CmdBytes} {F G : List Byte} :
    .rxdone F = frameAction c G ↔ ¬ 3 < (byteAt F 0).toNat ∧ F = G := by
  rw [frameAction_eq]
  split
  · next htag => exact ⟨fun he => (by cases he), fun he => absurd htag (he.2 ▸ he.1)⟩
  · next htag => exact ⟨fun he => by cases he; exact ⟨htag, rfl⟩, fun he => by rw [he.2]⟩

theorem flush_ne_frameAction (n : Count) (c : CmdBytes) (F : List Byte) : .flush n ≠ frameAction c F := fun he => by
  have hdone := completes_frameAction c F
  rw [← he] at hdone
  cases hdone

/-- An action that hands `F` over is made by the byte that makes the bytes received the whole frame `F`. -/
theorem frame_mem_receptionReports {i : Instr} {s : State} {a : Action} {F : List Byte} {P : Prop}
    (hframe : ∀ G, a = frameAction s.cmdBytes G ↔ P ∧ F = G) (hflush : ∀ n, a ≠ .flush n) :
    a ∈ receptionReports i s ↔ P ∧ s.headerSize ≤ F.length ∧ F.length = declaredLength s.cmdBytes F
      ∧ ∃ b, i = .rxb b ∧ F = s.rxFrame ++ [b] := by
  rw [mem_receptionReports]
  constructor
  · rintro (⟨b, rfl, ⟨hle, hlen⟩, ha⟩ | ⟨-, -, -, ha⟩)
    · obtain ⟨hP, rfl⟩ := (hframe _).mp ha
      exact ⟨hP, hle, hlen, b, rfl, rfl⟩
    · exact absurd ha (hflush _)
  · rintro ⟨hP, hle, hlen, b, rfl, rfl⟩
    exact .inl ⟨b, rfl, ⟨hle, hlen⟩, (hframe _).mpr ⟨hP, rfl⟩⟩

theorem flush_mem_receptionReports {i : Instr} {s : State} {n : Count} :
    .flush n ∈ receptionReports i s
      ↔ i = .tmo ∧ s.blk.timerArmed = true ∧ s.blk.faState ≠ .idle ∧ n = s.blk.rxCnt := by
  rw [mem_receptionReports]
  simp [flush_ne_frameAction]

/-- A frame in progress has at least one byte and leaves room for one (R37, R152). -/
theorem State.Inv.rxCnt_pos {s : State} (hs : s.Inv) (hfa : s.blk.faState ≠ .idle) : 1 ≤ s.blk.rxCnt.toNat := by
  refine Nat.one_le_iff_ne_zero.mpr fun h0 => hfa ?_
  obtain ⟨hidle, -⟩ := hs.assembler_of_rxCnt
  exact (hidle (BitVec.eq_of_toNat_eq h0)).1

/-- Settles O10, report by report. -/
theorem reportsOfFramesAndTimeouts : Obligations.ReportsOfFramesAndTimeouts := fun i s t hs h => by
  have hflush (n : Count) : .flush n ∈ t.actions ↔ _ :=
    (mem_actions_iff hs h rfl).trans flush_mem_receptionReports
  refine ⟨fun F => ?_, fun F => ?_, hflush, fun n hn => ?_, ?_⟩
  · rw [mem_actions_iff hs h rfl]
    exact frame_mem_receptionReports (fun _ => rxerr_eq_frameAction) (by simp)
  · rw [mem_actions_iff hs h rfl]
    exact frame_mem_receptionReports (fun _ => rxdone_eq_frameAction) (by simp)
  · obtain ⟨-, -, hfa, rfl⟩ := (hflush n).mp hn
    exact ⟨hs.rxCnt_pos hfa, Nat.le_sub_one_of_lt hs.rxCnt_lt⟩
  · exact (congrArg List.length (exec_reports hs h)).trans_le (receptionReports_length i s)

end Sys2Proof.Machine
end

section
/-! PROOF. The assembler fed byte by byte (spec R77, R107): whatever sends go on meanwhile, a frame is handed over with
the byte that makes it whole. -/

namespace Sys2Proof.Machine

/-! ### Whole frames (R77) -/

/-- A list as long as its own header declares. -/
abbrev WholeFrame (c : CmdBytes) (F : List Byte) : Prop :=
  c.headerSize ≤ F.length ∧ F.length = declaredLength c F

theorem wholeFrame_serialize {c : CmdBytes} {m : Message} (hm : m.wf c = true) : WholeFrame c (serialize c m) := by
  obtain ⟨-, hpay, -⟩ := Message.wf_iff.mp hm
  have hlen := declaredLength_serialize (c := c) hpay []
  rw [List.append_nil] at hlen
  exact ⟨by simp, hlen.symm⟩

theorem WholeFrame.ne_nil {c : CmdBytes} {F : List Byte} (hF : WholeFrame c F) : F ≠ [] := by
  have hH := c.headerSize_bounds
  rintro rfl
  have hle : c.headerSize ≤ 0 := hF.1
  omega

/-- A whole frame begins no longer one: both declare the same length. -/
theorem WholeFrame.eq_of_prefix {c : CmdBytes} {F G : List Byte} (hF : WholeFrame c F) (hG : WholeFrame c G)
    (h : G <+: F) : G = F := by
  have hH := c.headerSize_bounds
  obtain ⟨hle, hlen⟩ := hG
  refine h.eq_of_length (hlen.trans ?_)
  obtain ⟨R, rfl⟩ := h
  rw [hF.2, declaredLength, declaredLength, byteAt_append_left (by omega)]

/-! ### Completions (R101) -/

@[simp] theorem completions_append (as bs : List Action) :
    completions (as ++ bs) = completions as ++ completions bs :=
  List.filter_append _ _

@[simp] theorem completions_frameAction (c : CmdBytes) (F : List Byte) :
    completions [frameAction c F] = [frameAction c F] := by
  simp [completions, completes_frameAction]

/-- Only `RXB` completes a frame. -/
theorem exec_completions_of_ne_rxb {i : Instr} {s t : State} (hs : s.Inv) (h : exec i s = .next t)
    (hrxb : ∀ b, i ≠ .rxb b) : completions t.actions = [] := by
  refine List.filter_eq_nil_iff.mpr fun a ha hdone => ?_
  have hreport : a ∈ receptionReports i s := (mem_actions_iff hs h (by simp [Action.isReport, hdone])).mp ha
  obtain ⟨b, hb, -⟩ | ⟨-, -, -, rfl⟩ := mem_receptionReports.mp hreport
  · exact hrxb b hb
  · cases hdone

theorem frameAction_serialize {c : CmdBytes} {m : Message} (hm : m.wf c = true) :
    frameAction c (serialize c m) = .rxdone (serialize c m) := by
  simp [frameAction, deserialize_serialize hm]

/-! ### What an operation does to the frame received so far -/

theorem State.rxFrame_eq_nil {s : State} : s.rxFrame = [] ↔ s.blk.rxCnt = 0 := by
  rw [← List.length_eq_zero_iff, State.rxFrame_length]
  exact BitVec.toNat_inj (y := 0)

/-- The byte ends the frame, or it is appended to it (R100, R101). -/
theorem execRxb_feeds {s t : State} {b : Byte} (hs : s.Inv) (h : execRxb b s = .next t) :
    (s.FrameEnds b ∧ t.actions = [.tstart, frameAction s.cmdBytes (s.rxFrame ++ [b])] ∧ t.rxFrame = [])
    ∨ (¬ s.FrameEnds b ∧ t.actions = [.tstart] ∧ t.rxFrame = s.rxFrame ++ [b]) := by
  obtain ⟨hends, hact, -⟩ | ⟨hends, hact, -⟩ := execRxb_reports hs h
  · obtain ⟨-, hzero, -⟩ := execRxb_registers_of_frameEnds hs h hends
    exact .inl ⟨hends, hact, State.rxFrame_eq_nil.mpr hzero⟩
  · obtain ⟨hcnt, -⟩ := execRxb_registers_of_not_frameEnds hs h hends
    obtain ⟨-, -, -, -, hnew⟩ := execRxb_flags h
    obtain ⟨-, hother, -⟩ := rxbFrame s t b h
    refine .inr ⟨hends, hact, ?_⟩
    rw [State.rxFrame, hcnt, State.bytes_succ, Nat.zero_add, hnew]
    congr 1
    exact State.bytes_congr fun a _ ha => hother a (by omega)

/-- Sends and ignored timeouts leave the counter alone (R103, R164). -/
theorem exec_keeps_rxCnt {i : Instr} {s t : State} (h : exec i s = .next t) (hrst : i ≠ .rst) (hrxb : ∀ b, i ≠ .rxb b)
    (htmo : i = .tmo → t.outcomes = [.ignored]) : t.blk.rxCnt = s.blk.rxCnt := by
  cases i with
  | rst => exact absurd rfl hrst
  | rxb b => exact absurd rfl (hrxb b)
  | tmo =>
    have harm : ¬ s.blk.timerArmed = true := fun harm => by
      simp [(execTmo_of_armed harm h).1] at htmo
    obtain ⟨-, rfl⟩ := execTmo_next.mp h
    rw [if_neg harm]
    rfl
  | snd m =>
    obtain ⟨-, -, rfl⟩ := execSnd_next.mp h
    split <;> rfl
  | txb =>
    obtain ⟨-, ht⟩ := execTxb_next.mp h
    split at ht
    · obtain ⟨-, rfl⟩ := ht
      rfl
    · obtain rfl := ht
      rfl
  | trn =>
    obtain ⟨-, rfl⟩ := execTrn_next.mp h
    split <;> rfl

theorem exec_keeps_rxFrame {i : Instr} {s t : State} (h : exec i s = .next t) (hrst : i ≠ .rst)
    (hrxb : ∀ b, i ≠ .rxb b) (htmo : i = .tmo → t.outcomes = [.ignored]) : t.rxFrame = s.rxFrame := by
  obtain ⟨-, -, hbyte⟩ := exec_keeps_frame hrst hrxb h
  rw [State.rxFrame, exec_keeps_rxCnt h hrst hrxb htmo]
  exact State.bytes_congr fun a _ _ => hbyte a

/-! ### Sequences of operations (R107) -/

@[simp] theorem State.reportsAfter_rxFrame (t u : State) : (t.reportsAfter u).rxFrame = u.rxFrame := rfl

theorem rxOperands_cons_rxb (b : Byte) (ops : List Instr) : rxOperands (.rxb b :: ops) = b :: rxOperands ops := rfl

theorem rxOperands_cons_of_ne_rxb {i : Instr} (hrxb : ∀ b, i ≠ .rxb b) (ops : List Instr) :
    rxOperands (i :: ops) = rxOperands ops := by
  cases i with
  | rxb b => exact absurd rfl (hrxb b)
  | _ => rfl

theorem timeoutsIgnored_cons {i : Instr} {ops : List Instr} {w : OutcomeWord} {words : List OutcomeWord} :
    TimeoutsIgnored (i :: ops) (w :: words) ↔ (i = .tmo → w = .ignored) ∧ TimeoutsIgnored ops words := by
  simp [TimeoutsIgnored]

/-- What is received while a frame `F` is fed: completed with its last byte, and until then kept. -/
theorem performAll_feeds {ops : List Instr} {s t : State} {F : List Byte} (hs : s.Inv) (hrst : .rst ∉ ops)
    (h : performAll ops s = .next t) (hignored : TimeoutsIgnored ops t.outcomes) (hF : WholeFrame s.cmdBytes F)
    (hne : s.rxFrame ≠ F) (hpre : s.rxFrame ++ rxOperands ops <+: F) :
    if s.rxFrame ++ rxOperands ops = F then completions t.actions = [frameAction s.cmdBytes F] ∧ t.rxFrame = []
    else completions t.actions = [] ∧ t.rxFrame = s.rxFrame ++ rxOperands ops := by
  induction ops generalizing s t with
  | nil =>
    obtain rfl := performAll_nil.mp h
    rw [if_neg (by simpa [rxOperands] using hne)]
    exact ⟨rfl, (List.append_nil _).symm⟩
  | cons i is ih =>
    obtain ⟨u, v, hu, hv, rfl⟩ := performAll_cons.mp h
    obtain ⟨hcmd, -, w, hw⟩ := exec_keeps_config hu
    obtain ⟨hrst', hrst''⟩ : i ≠ .rst ∧ .rst ∉ is := by simpa [eq_comm] using hrst
    obtain ⟨htmo, hignored'⟩ : (i = .tmo → w = .ignored) ∧ TimeoutsIgnored is v.outcomes :=
      timeoutsIgnored_cons.mp (by simpa [hw] using hignored)
    specialize ih (exec_inv hs hu) hrst'' hv hignored' (hcmd ▸ hF)
    rw [hcmd] at ih
    rw [State.reportsAfter_actions, State.reportsAfter_rxFrame, completions_append]
    by_cases hrxb : ∃ b, i = .rxb b
    · obtain ⟨b, rfl⟩ := hrxb
      rw [rxOperands_cons_rxb, List.append_cons] at hpre ⊢
      obtain ⟨hends, hact, hrx⟩ | ⟨hends, hact, hrx⟩ := execRxb_feeds hs hu
      · have hwhole : s.rxFrame ++ [b] = F := hF.eq_of_prefix hends ((List.prefix_append _ _).trans hpre)
        rw [hwhole] at hpre hact ⊢
        have hlast : rxOperands is = [] := List.append_right_eq_self.mp (hpre.eq_of_length_le (by simp))
        rw [hrx, hlast, List.append_nil, if_neg hF.ne_nil.symm] at ih
        obtain ⟨hnone, hrx'⟩ := ih hF.ne_nil.symm List.nil_prefix
        rw [hlast, List.append_nil, if_pos rfl, hact, hnone, hrx', List.append_nil]
        exact ⟨completions_frameAction _ _, rfl⟩
      · rw [hrx] at ih
        rw [hact]
        exact ih (fun hwhole => hends (show WholeFrame _ _ from hwhole ▸ hF)) hpre
    · replace hrxb : ∀ b, i ≠ .rxb b := fun b hb => hrxb ⟨b, hb⟩
      rw [rxOperands_cons_of_ne_rxb hrxb] at hpre ⊢
      have hkeep := exec_keeps_rxFrame hu hrst' hrxb fun hi => by rw [hw, htmo hi]
      rw [hkeep] at ih
      rw [exec_completions_of_ne_rxb hs hu hrxb, List.nil_append]
      exact ih hne hpre

/-- Settles O44, with the Idle assembler as one that has received nothing. -/
theorem incrementalEquivalence : Obligations.IncrementalEquivalence := fun s m ops t hs hfa hm hrst h hignored => by
  have hF := wholeFrame_serialize hm
  have hnil : s.rxFrame = [] := by
    obtain ⟨⟨hidle, -⟩, -⟩ := hs
    exact State.rxFrame_eq_nil.mpr (hidle.mp hfa)
  have hfeed := performAll_feeds hs hrst h hignored hF (hnil ▸ hF.ne_nil.symm)
  rw [hnil, List.nil_append] at hfeed
  refine ⟨fun hpre hne => ?_, fun heq => ?_⟩
  · replace hfeed := hfeed hpre
    rw [if_neg hne] at hfeed
    exact hfeed.1
  · replace hfeed := hfeed (heq ▸ List.prefix_rfl)
    rw [if_pos heq, frameAction_serialize hm] at hfeed
    have hzero := State.rxFrame_eq_nil.mp hfeed.2
    obtain ⟨hidle, -⟩ := (performAll_inv hs h).assembler_of_rxCnt
    exact ⟨hfeed.1, deserialize_serialize hm, (hidle hzero).1, hzero⟩

end Sys2Proof.Machine
end

section
/-! PROOF. No operation reads what the collaborators hold (spec R36): a run from any Quiescent state, whatever its buffers
and its environment hold, reports what a run from a state that meets the invariant reports. -/

namespace Sys2Proof.Machine

/-! ### One block beside other collaborators -/

/-- The same block beside other collaborators. -/
def State.withEnv (e : Env) (s : State) : State := { s with env := e }

/-- The first state is the second beside some collaborators. -/
def State.SameButEnv (t s : State) : Prop := ∃ e, t = s.withEnv e

theorem complete_withEnv (e : Env) (s : State) : (complete (s.withEnv e)).SameButEnv (complete s) := by
  rw [complete_eq, complete_eq]
  exact ⟨_, rfl⟩

theorem rxbMid_withEnv (b : Byte) (e : Env) (s : State) : (rxbMid b (s.withEnv e)).SameButEnv (rxbMid b s) := by
  rw [rxbMid_eq, rxbMid_eq]
  exact ⟨_, rfl⟩

/-- The tests of `RXB` write to the collaborators, but do not read them. -/
theorem rxbAdvance_withEnv (e : Env) (s : State) : (rxbAdvance (s.withEnv e)).SameButEnv (rxbAdvance s) := by
  refine rel_ite (R := State.SameButEnv) Iff.rfl (fun _ => ?_) fun _ =>
    rel_ite (R := State.SameButEnv) Iff.rfl (fun _ => complete_withEnv e s) fun _ => ⟨e, rfl⟩
  exact rel_ite (R := State.SameButEnv) Iff.rfl (fun _ => complete_withEnv e (s.setPayLen s.headerPayLen))
    fun _ => ⟨e, rfl⟩

theorem tmoFlush_withEnv (e : Env) (s : State) : tmoFlush (s.withEnv e) = (tmoFlush s).withEnv e :=
  rel_ite (c := s.blk.faState = .idle) (R := fun t u : State => t = u.withEnv e) Iff.rfl (fun _ => rfl) fun _ => rfl

theorem tmoRelease_withEnv (e : Env) (s : State) : (tmoRelease (s.withEnv e)).SameButEnv (tmoRelease s) := by
  have hts : (s.withEnv e).blk.txState = s.blk.txState := rfl
  unfold tmoRelease
  rw [hts]
  cases s.blk.txState <;> exact ⟨_, rfl⟩

/-- No operation reads the collaborators: it does the same beside others. -/
theorem exec_withEnv {i : Instr} {s t : State} (e : Env) (h : exec i s = .next t) :
    ∃ t', exec i (s.withEnv e) = .next t' ∧ t'.SameButEnv t := by
  cases i with
  | rst =>
    obtain rfl := execRst_next.mp h
    exact ⟨_, rfl, _, rfl⟩
  | rxb b =>
    obtain ⟨hstart, hcnt, rfl⟩ := execRxb_next.mp h
    obtain ⟨e', hmid⟩ := rxbMid_withEnv b e s
    exact ⟨rxbAdvance (rxbMid b (s.withEnv e)), execRxb_next.mpr ⟨hstart, hcnt, rfl⟩,
      hmid ▸ rxbAdvance_withEnv e' (rxbMid b s)⟩
  | tmo =>
    obtain ⟨hstart, rfl⟩ := execTmo_next.mp h
    refine ⟨_, execTmo_next.mpr ⟨hstart, rfl⟩, rel_ite (R := State.SameButEnv) Iff.rfl (fun _ => ?_) fun _ => ⟨e, rfl⟩⟩
    have hflush := tmoFlush_withEnv { e with timerRunning := false } (s.attempt .performed).timerFired
    exact hflush ▸ tmoRelease_withEnv _ _
  | snd m =>
    obtain ⟨hstart, hm, rfl⟩ := execSnd_next.mp h
    exact ⟨_, execSnd_next.mpr ⟨hstart, hm, rfl⟩,
      rel_ite (R := State.SameButEnv) Iff.rfl (fun _ => ⟨_, rfl⟩) fun _ => ⟨_, rfl⟩⟩
  | txb =>
    obtain ⟨hstart, ht⟩ := execTxb_next.mp h
    split at ht
    · next hen =>
      obtain ⟨hin, rfl⟩ := ht
      exact ⟨_, execTxb_next.mpr ⟨hstart, (if_pos (c := (s.withEnv e).txEnabled) hen).mpr ⟨hin, rfl⟩⟩, _, rfl⟩
    · next hen =>
      obtain rfl := ht
      exact ⟨_, execTxb_next.mpr ⟨hstart, (if_neg (c := (s.withEnv e).txEnabled) hen).mpr rfl⟩, _, rfl⟩
  | trn =>
    obtain ⟨hstart, rfl⟩ := execTrn_next.mp h
    exact ⟨_, execTrn_next.mpr ⟨hstart, rfl⟩,
      rel_ite (R := State.SameButEnv) Iff.rfl (fun _ => ⟨_, rfl⟩) fun _ => ⟨_, rfl⟩⟩

/-! ### States that run alike -/

/-- Two states that differ at most in the collaborators and in bytes no rule reads. -/
def State.RunsLike (s t : State) : Prop := ∃ e, (s.withEnv e).SameButStale t

theorem exec_runsLike {i : Instr} {s s' t : State} (hlike : s.RunsLike s') (h : exec i s = .next t) :
    ∃ t', exec i s' = .next t' ∧ t.RunsLike t' := by
  obtain ⟨e, hsame⟩ := hlike
  obtain ⟨_, hu, e', rfl⟩ := exec_withEnv e h
  obtain ⟨hnext, -⟩ := staleBytesNeverRead i _ _ hsame
  obtain ⟨t', ht', hsame'⟩ := hnext _ hu
  exact ⟨t', ht', e', hsame'⟩

/-- States that run alike show the same reports. -/
theorem State.RunsLike.reports {s t : State} (h : s.RunsLike t) : t.actions = s.actions ∧ t.outcomes = s.outcomes := by
  obtain ⟨e, hsame⟩ := h
  obtain ⟨buf, txb, gen, rfl⟩ := hsame.exists_withContents
  exact ⟨rfl, rfl⟩

theorem State.RunsLike.with_reports {s t : State} (h : s.RunsLike t) (as : List Action) (ws : List OutcomeWord) :
    State.RunsLike { s with actions := as, outcomes := ws } { t with actions := as, outcomes := ws } := by
  obtain ⟨e, hsame⟩ := h
  refine ⟨e, ?_⟩
  obtain ⟨buf, txb, gen, rfl⟩ := hsame.exists_withContents
  obtain ⟨-, hbuf, htxb⟩ := hsame
  exact ⟨rfl, hbuf, htxb⟩

theorem performAll_runsLike {ops : List Instr} {s s' t : State} (hlike : s.RunsLike s')
    (h : performAll ops s = .next t) : ∃ t', performAll ops s' = .next t' ∧ t.RunsLike t' := by
  induction ops generalizing s s' t with
  | nil =>
    obtain rfl := performAll_nil.mp h
    exact ⟨_, rfl, hlike.with_reports [] []⟩
  | cons i is ih =>
    obtain ⟨u, v, hu, hv, rfl⟩ := performAll_cons.mp h
    obtain ⟨u', hu', hlikeu⟩ := exec_runsLike hlike hu
    obtain ⟨v', hv', hlikev⟩ := ih hlikeu hv
    refine ⟨_, performAll_cons.mpr ⟨u', v', hu', hv', rfl⟩, ?_⟩
    obtain ⟨hact, hword⟩ := hlikeu.reports
    obtain ⟨hact', hword'⟩ := hlikev.reports
    rw [State.reportsAfter, State.reportsAfter, hact, hword, hact', hword']
    exact hlikev.with_reports _ _

/-- Every Quiescent state runs like one that meets the invariant (R33). -/
theorem State.Quiescent.exists_runsLike {s : State} (h : s.Quiescent) :
    ∃ s₀ : State, s₀.Inv ∧ s₀.Quiescent ∧ s₀.started = s.started ∧ s₀.cmdBytes = s.cmdBytes ∧ s₀.RunsLike s := by
  refine ⟨{ s with blk := .reset, env := .reset }, State.inv_of_reset rfl rfl rfl,
    ⟨rfl, rfl, rfl, rfl, rfl, rfl, rfl, rfl, rfl⟩, rfl, rfl, s.env, ?_,
    fun a ha => absurd ha (Nat.not_lt_zero a), fun a ha => absurd ha (Nat.not_lt_zero a)⟩
  obtain ⟨hfa, hcnt, hpay, hlock, hdir, hts, hlen, hidx, harm⟩ := h
  simp [State.withEnv, Block.reset, Block.registers, hfa, hcnt, hpay, hlock, hdir, hts, hlen, hidx, harm]

end Sys2Proof.Machine
end

section
/-! PROOF. Received bytes as a run of their own (spec R90), and recovery from a partial frame by a timeout (R108). -/

namespace Sys2Proof.Machine

/-! ### Runs of RXB -/

theorem rxOperands_map_rxb (bytes : List Byte) : rxOperands (bytes.map .rxb) = bytes := by
  induction bytes with
  | nil => rfl
  | cons b bytes ih => exact congrArg (b :: ·) ih

theorem timeoutsIgnored_map_rxb (bytes : List Byte) (words : List OutcomeWord) :
    TimeoutsIgnored (bytes.map .rxb) words := by
  rintro ⟨i, w⟩ hp rfl
  simpa using (List.of_mem_zip hp).1

/-- Bytes that complete no frame start the timer, one by one, and do not act on the send. -/
theorem performAll_rxbs_of_no_completion {bytes : List Byte} {s t : State} (hs : s.Inv)
    (h : performAll (bytes.map .rxb) s = .next t) (hnone : completions t.actions = []) :
    t.actions = List.replicate bytes.length .tstart ∧ t.blk.txState = s.blk.txState := by
  induction bytes generalizing s t with
  | nil =>
    obtain rfl := performAll_nil.mp h
    exact ⟨rfl, rfl⟩
  | cons b bytes ih =>
    obtain ⟨u, v, hu, hv, rfl⟩ := performAll_cons.mp h
    have hts : u.blk.txState = s.blk.txState := by
      obtain ⟨_, _, _, _, _, _, -, rfl⟩ := execRxb_frame hu
      rfl
    obtain ⟨hnone', hnone''⟩ : completions u.actions = [] ∧ completions v.actions = [] :=
      List.append_eq_nil_iff.mp ((completions_append _ _).symm.trans hnone)
    obtain ⟨hact, hts'⟩ := ih (exec_inv hs hu) hv hnone''
    refine ⟨?_, hts'.trans hts⟩
    obtain ⟨-, hact', -⟩ | ⟨-, hact', -⟩ := execRxb_feeds hs hu
    · have hmem : frameAction s.cmdBytes (s.rxFrame ++ [b]) ∈ completions u.actions :=
        List.mem_filter.mpr ⟨by simp [hact'], completes_frameAction _ _⟩
      simp [hnone'] at hmem
    · rw [State.reportsAfter_actions, hact', hact]
      rfl

/-- A part of a frame is kept, and nothing is handed over. -/
theorem performAll_rxbs_part {part F : List Byte} {s t : State} (hs : s.Inv) (hnil : s.rxFrame = [])
    (h : performAll (part.map .rxb) s = .next t) (hF : WholeFrame s.cmdBytes F) (hpre : part <+: F) (hne : part ≠ F) :
    t.actions = List.replicate part.length .tstart ∧ t.rxFrame = part ∧ t.blk.txState = s.blk.txState := by
  have hfeed := performAll_feeds hs (by simp) h (timeoutsIgnored_map_rxb _ _) hF (hnil ▸ hF.ne_nil.symm)
  rw [hnil, rxOperands_map_rxb, List.nil_append, if_neg hne] at hfeed
  obtain ⟨hnone, hrx⟩ := hfeed hpre
  obtain ⟨hact, hts⟩ := performAll_rxbs_of_no_completion hs h hnone
  exact ⟨hact, hrx, hts⟩

/-- A whole frame is handed over with its last byte (R101). -/
theorem performAll_rxbs_frame {F : List Byte} {s t : State} (hs : s.Inv) (hstart : s.started = true)
    (hnil : s.rxFrame = []) (h : performAll (F.map .rxb) s = .next t) (hF : WholeFrame s.cmdBytes F) :
    t.actions = List.replicate F.length .tstart ++ [frameAction s.cmdBytes F] := by
  obtain ⟨part, b, rfl⟩ := (List.eq_nil_or_concat' F).resolve_left hF.ne_nil
  rw [List.map_append, List.map_singleton] at h
  obtain ⟨u, v, hu, hv, rfl⟩ := performAll_append.mp h
  obtain ⟨hact, hrx, -⟩ := performAll_rxbs_part hs hnil hu hF (List.prefix_append _ _) (by simp)
  have hcmd : u.cmdBytes = s.cmdBytes := (performAll_keeps_config hstart hu).1
  rw [performAll_singleton] at hv
  rw [State.reportsAfter_actions]
  obtain ⟨-, hact', -⟩ | ⟨hends, -⟩ := execRxb_feeds (performAll_inv hs hu) hv
  · rw [hact, hact', hrx, hcmd, List.length_append, List.length_singleton, List.replicate_succ', List.append_assoc]
    rfl
  · exact absurd (show WholeFrame _ _ by rwa [hrx, hcmd]) hends

/-- A `TMO` that finds a frame in progress, and no send in its gap, flushes it (R103, R152). -/
theorem execTmo_flushes {s t : State} (hs : s.Inv) (h : execTmo s = .next t) (hne : s.rxFrame ≠ [])
    (hts : s.blk.txState = .txIdle) : t.actions = [.flush s.blk.rxCnt] ∧ t.rxFrame = [] := by
  have hfa : s.blk.faState ≠ .idle := fun hfa => by
    obtain ⟨⟨hidle, -⟩, -⟩ := hs
    exact hne (State.rxFrame_eq_nil.mpr (hidle.mp hfa))
  have harm : s.blk.timerArmed = true := by
    obtain ⟨-, ⟨-, hassembling, -⟩, -⟩ := hs
    exact hassembling hfa
  obtain ⟨-, hblk⟩ := execTmo_of_armed harm h
  exact ⟨by simp [execTmo_actions h, timeoutActions, harm, hfa, hts],
    State.rxFrame_eq_nil.mpr (by simp [hblk, Block.released, Block.flushed, hts, hfa])⟩

/-- A part of a frame, a `TMO` and a whole frame, with nothing received before (R108). -/
theorem performAll_recovers {part F G : List Byte} {s t : State} (hs : s.Inv) (hstart : s.started = true)
    (hnil : s.rxFrame = []) (hts : s.blk.txState = .txIdle)
    (h : performAll (part.map .rxb ++ .tmo :: F.map .rxb) s = .next t) (hF : WholeFrame s.cmdBytes F)
    (hG : WholeFrame s.cmdBytes G) (hpre : part <+: G) (hne : part ≠ G) (hpos : part ≠ []) :
    t.actions = List.replicate part.length .tstart ++ .flush (BitVec.ofNat 9 part.length)
      :: (List.replicate F.length .tstart ++ [frameAction s.cmdBytes F])
    ∧ (BitVec.ofNat 9 part.length).toNat = part.length := by
  obtain ⟨u, v, hu, hv, rfl⟩ := performAll_append.mp h
  obtain ⟨x, y, hx, hy, rfl⟩ := performAll_cons.mp hv
  have hinv := performAll_inv hs hu
  obtain ⟨hcmd, -⟩ := performAll_keeps_config hstart hu
  obtain ⟨hcmd', hstart', -⟩ := exec_keeps_config hx
  obtain ⟨hact, hrx, hts'⟩ := performAll_rxbs_part hs hnil hu hG hpre hne
  obtain ⟨hact', hrx'⟩ := execTmo_flushes hinv hx (hrx.trans_ne hpos) (hts'.trans hts)
  have hcmd'' : x.cmdBytes = s.cmdBytes := hcmd'.trans hcmd
  have hact'' := performAll_rxbs_frame (exec_inv hinv hx) hstart' hrx' hy (hcmd'' ▸ hF)
  have hcnt : u.blk.rxCnt.toNat = part.length := by rw [← State.rxFrame_length, hrx]
  have hn : u.blk.rxCnt = BitVec.ofNat 9 part.length := by rw [← hcnt, BitVec.ofNat_toNat, BitVec.setWidth_eq]
  rw [← hn]
  refine ⟨?_, hcnt⟩
  rw [State.reportsAfter_actions, State.reportsAfter_actions, hact, hact', hact'', hcmd'']
  rfl

/-- Settles O45, from a state that meets the invariant and runs like the given one. -/
theorem timeoutRecovery : Obligations.TimeoutRecovery := fun s m m' part hq hstart hm hm' hpre hne hpos => by
  obtain ⟨s₀, hs₀, ⟨-, hcnt, -, -, -, hts, -⟩, hstart₀, hcmd₀, hlike⟩ := hq.exists_runsLike
  rw [← hstart₀] at hstart
  rw [← hcmd₀] at hm hm' hpre hne ⊢
  have hwf : ∀ i ∈ part.map Instr.rxb ++ .tmo :: (serialize s₀.cmdBytes m).map .rxb, i.wf s₀.cmdBytes = true := by
    intro i hi
    cases i with
    | snd m => simp at hi
    | _ => rfl
  obtain ⟨t, ht, -⟩ := performAll_answers hs₀ hstart hwf
  obtain ⟨t', ht', hlike'⟩ := performAll_runsLike hlike ht
  obtain ⟨hact, hlen⟩ := performAll_recovers hs₀ hstart (State.rxFrame_eq_nil.mpr hcnt) hts ht (wholeFrame_serialize hm)
    (wholeFrame_serialize hm') hpre hne hpos
  rw [frameAction_serialize hm] at hact
  exact ⟨t', _, ht', rfl, hlen, hlike'.reports.1.trans hact⟩

end Sys2Proof.Machine
end

section
/-! PROOF. What every operation emits and what it does to the lock and to the phase of the send (spec R120 to R124,
R128). -/

namespace Sys2Proof.Machine

/-! ### SND, TXB and TRN by their guards -/

theorem exec_snd_of_locked {m : Message} {s : State} (hstart : s.started = true) (hlock : s.blk.txLock = true)
    (hm : m.wf s.cmdBytes = true) : exec (.snd m) s = .next (s.attempt .held) :=
  execSnd_next.mpr ⟨hstart, hm, by simp [hlock]⟩

theorem exec_txb_of_enabled {s t : State} (hen : s.txEnabled = true) (h : exec .txb s = .next t) :
    t = ((s.attempt .performed).emit (.tx s.txByte)).advanceTx := by
  obtain ⟨-, ht⟩ := execTxb_next.mp h
  rw [if_pos hen] at ht
  exact ht.2

theorem exec_txb_of_not_enabled {s : State} (hstart : s.started = true) (hen : s.txEnabled = false) :
    exec .txb s = .next (s.attempt .notEnabled) :=
  execTxb_next.mpr ⟨hstart, by simp [hen]⟩

theorem exec_trn_of_enabled {s : State} (hstart : s.started = true) (hen : s.trnEnabled = true) :
    exec .trn s = .next (((s.attempt .performed).switchLine .receive).startTimer.setTxState .gap) :=
  execTrn_next.mpr ⟨hstart, by simp [hen]⟩

theorem exec_trn_of_not_enabled {s : State} (hstart : s.started = true) (hen : s.trnEnabled = false) :
    exec .trn s = .next (s.attempt .notEnabled) :=
  execTrn_next.mpr ⟨hstart, by simp [hen]⟩

/-- While a byte is presented the index does not wrap (R39, R122). -/
theorem txIdx_succ {s : State} (hen : s.txEnabled = true) : (s.blk.txIdx + 1).toNat = s.blk.txIdx.toNat + 1 := by
  obtain ⟨-, hlt⟩ := State.txEnabled_iff.mp hen
  bv_omega

/-! ### The actions of an operation (R85) -/

/-- What an operation emits, by its guard. -/
def operationActions : Instr → State → List Action
  | .rst, _ => [.tcancel, .dir .receive]
  | .rxb b, s => byteActions b s
  | .tmo, s => timeoutActions s
  | .snd _, s => if s.blk.txLock then [] else [.dir .transmit]
  | .txb, s => if s.txEnabled then [.tx s.txByte] else []
  | .trn, s => if s.trnEnabled then [.dir .receive, .tstart] else []

theorem exec_actions {i : Instr} {s t : State} (hs : s.Inv) (h : exec i s = .next t) :
    t.actions = operationActions i s := by
  cases i with
  | rst =>
    obtain rfl := execRst_next.mp h
    rfl
  | rxb b =>
    rw [operationActions, byteActions]
    obtain ⟨hends, hact, -⟩ | ⟨hends, hact, -⟩ := execRxb_reports hs h
    · rw [hact, if_pos hends]
    · rw [hact, if_neg hends]
  | tmo => exact execTmo_actions h
  | snd m =>
    obtain ⟨-, -, rfl⟩ := execSnd_next.mp h
    rw [operationActions]
    split <;> rfl
  | txb =>
    obtain ⟨-, ht⟩ := execTxb_next.mp h
    rw [operationActions]
    split at ht
    · next hen =>
      obtain ⟨-, rfl⟩ := ht
      rw [if_pos hen]
      rfl
    · next hen =>
      obtain rfl := ht
      rw [if_neg hen]
      rfl
  | trn =>
    obtain ⟨-, rfl⟩ := execTrn_next.mp h
    rw [operationActions]
    split <;> rfl

/-- The operations that turn the line, and their guards (R121, R123, R128, R140). -/
theorem dir_mem_operationActions {i : Instr} {s : State} {d : Dir} :
    .dir d ∈ operationActions i s ↔
      (i = .rst ∧ d = .receive) ∨ ((∃ m, i = .snd m) ∧ s.blk.txLock = false ∧ d = .transmit)
        ∨ (i = .trn ∧ s.trnEnabled = true ∧ d = .receive) := by
  cases i with
  | rst => simp [operationActions]
  | rxb b => simp [operationActions, mem_byteActions (a := .dir d) rfl]
  | tmo => simp [operationActions, mem_timeoutActions]
  | snd m => cases hlock : s.blk.txLock <;> simp [operationActions, hlock]
  | txb => cases hen : s.txEnabled <;> simp [operationActions, hen]
  | trn => cases hen : s.trnEnabled <;> simp [operationActions, hen]

/-! ### The lock and the phase after an operation (R120, R124) -/

/-- A performed `TMO` ends every phase but Sending (R103). -/
theorem execTmo_lock_phase {s t : State} (h : execTmo s = .next t) :
    (s.blk.timerArmed = true ∧ s.blk.txState ≠ .sending ∧ t.outcomes = [.performed] ∧ t.blk.txLock = false
      ∧ t.blk.txState = .txIdle)
    ∨ ((t.outcomes = [.performed] → s.blk.txState = .sending) ∧ t.blk.txLock = s.blk.txLock
      ∧ t.blk.txState = s.blk.txState) := by
  by_cases harm : s.blk.timerArmed = true
  · obtain ⟨hword, hblk⟩ := execTmo_of_armed harm h
    rw [hblk]
    by_cases hts : s.blk.txState = .sending
    · exact .inr (by simp [Block.released, Block.flushed, hts])
    · exact .inl (by simp [Block.released, Block.flushed, hts, harm, hword])
  · obtain ⟨-, rfl⟩ := execTmo_next.mp h
    rw [if_neg harm]
    exact .inr (by simp)

/-- The phase of the send after each operation (R124). -/
theorem exec_txState {i : Instr} {s t : State} (h : exec i s = .next t) :
    (i = .rst ∧ t.blk.txState = .txIdle)
    ∨ (i = .tmo ∧ s.blk.txState ≠ .sending ∧ t.blk.txState = .txIdle)
    ∨ ((∃ m, i = .snd m) ∧ s.blk.txLock = false ∧ t.blk.txState = .sending)
    ∨ (i = .trn ∧ s.blk.txState = .sending ∧ t.blk.txState = .gap)
    ∨ t.blk.txState = s.blk.txState := by
  cases i with
  | rst =>
    obtain rfl := execRst_next.mp h
    exact .inl ⟨rfl, rfl⟩
  | rxb b =>
    obtain ⟨_, _, _, _, _, _, -, rfl⟩ := execRxb_frame h
    simp
  | tmo =>
    obtain ⟨-, hts, -, -, hidle⟩ | ⟨-, -, hsame⟩ := execTmo_lock_phase h
    · exact .inr (.inl ⟨rfl, hts, hidle⟩)
    · simp [hsame]
  | snd m =>
    obtain ⟨-, -, rfl⟩ := execSnd_next.mp h
    cases hlock : s.blk.txLock <;> simp [sndBegin]
  | txb =>
    obtain ⟨-, ht⟩ := execTxb_next.mp h
    split at ht
    · obtain ⟨-, rfl⟩ := ht
      simp
    · obtain rfl := ht
      simp
  | trn =>
    obtain ⟨-, rfl⟩ := execTrn_next.mp h
    cases hen : s.trnEnabled with
    | true => simp [(State.trnEnabled_iff.mp hen).1]
    | false => simp

/-! ### The obligations -/

/-- Settles O11: the three answers of `SND`. -/
theorem sndPerformedHeldOrRefused : Obligations.SndPerformedHeldOrRefused := fun s m hstart => by
  refine ⟨exec_snd_of_illFormed hstart, fun hm hlock => exec_snd_of_locked hstart hlock hm, fun hm hlock => ?_⟩
  refine ⟨_, exec_snd_of_free hstart hlock hm, rfl, rfl, rfl, rfl, rfl, rfl,
    sndBegin_txFrame (s := s.attempt .performed) hm, ?_, rfl⟩
  rw [sndBegin_txLen (s := s.attempt .performed) hm, serialize_length]
  rfl

/-- Settles O14: the presented byte is inside `txb` by the invariant. -/
theorem txbHandsOverPresentedByte : Obligations.TxbHandsOverPresentedByte := fun s hs hstart => by
  rw [← State.txEnabled_iff]
  refine ⟨fun hen => ?_, fun hen => exec_txb_of_not_enabled hstart (by simpa using hen)⟩
  obtain ⟨t, h⟩ := exec_answers (i := .txb) hs hstart rfl
  obtain rfl := exec_txb_of_enabled hen h
  exact ⟨_, h, rfl, rfl, rfl, txIdx_succ hen⟩

/-- Settles O15: `TRN` is enabled, or it is not. -/
theorem trnTurnsLineAround : Obligations.TrnTurnsLineAround := fun s hstart => by
  rw [← State.trnEnabled_iff]
  exact ⟨fun hen => ⟨_, exec_trn_of_enabled hstart hen, rfl, rfl, rfl⟩,
    fun hen => exec_trn_of_not_enabled hstart (by simpa using hen)⟩

/-- Settles O17, operation by operation. -/
theorem lockWrites : Obligations.LockWrites := fun i s t h => by
  cases i with
  | rst =>
    obtain rfl := execRst_next.mp h
    simp [Block.reset]
  | rxb b =>
    obtain ⟨-, hlock, -⟩ := execRxb_flags h
    simp [hlock]
  | tmo =>
    obtain ⟨-, hts, hword, hlock, -⟩ | ⟨hword, hlock, -⟩ := execTmo_lock_phase h
    · simp [hts, hword, hlock]
    · simp +contextual [hlock, hword]
  | snd m =>
    obtain ⟨-, -, rfl⟩ := execSnd_next.mp h
    cases hlock : s.blk.txLock <;> simp [sndBegin, hlock]
  | txb =>
    obtain ⟨-, ht⟩ := execTxb_next.mp h
    split at ht
    · obtain ⟨-, rfl⟩ := ht
      simp +contextual
    · obtain rfl := ht
      simp +contextual
  | trn =>
    obtain ⟨-, rfl⟩ := execTrn_next.mp h
    cases hen : s.trnEnabled <;> simp +contextual

/-- Settles O19: the guards of `SND` and `TRN` put the line where they turn it from. -/
theorem directionAlternates : Obligations.DirectionAlternates := fun i s t hs h => by
  have hwrites := directionAndTimerWrites i s t h
  simp only [exec_actions hs h, dir_mem_operationActions]
  refine ⟨?_, ?_, fun hne => ?_⟩
  · rintro (⟨-, hd⟩ | ⟨⟨m, rfl⟩, hlock, -⟩ | ⟨-, -, hd⟩)
    · cases hd
    · obtain ⟨-, -, -, -, hdir, -⟩ := State.quiescent_of_lock_free hs hlock
      exact ⟨hdir, by simpa [hlock] using hwrites.1, m, rfl⟩
    · cases hd
  · rintro (⟨rfl, -⟩ | ⟨-, -, hd⟩ | ⟨rfl, hen, -⟩)
    · exact ⟨hwrites.1, .inl rfl⟩
    · cases hd
    · obtain ⟨hts, -⟩ := State.trnEnabled_iff.mp hen
      obtain ⟨-, -, ⟨hline, -⟩, -⟩ := hs
      exact ⟨by simpa [hen] using hwrites.1, .inr ⟨rfl, hline.mpr hts⟩⟩
  · cases i with
    | rst => exact .inl ⟨rfl, hwrites.1⟩
    | rxb b => exact absurd hwrites.1 hne
    | tmo => exact absurd hwrites.1 hne
    | snd m =>
      cases hlock : s.blk.txLock with
      | true => exact absurd (by simpa [hlock] using hwrites.1) hne
      | false => exact .inr (.inl ⟨⟨m, rfl⟩, rfl, by simpa [hlock] using hwrites.1⟩)
    | txb => exact absurd hwrites.1 hne
    | trn =>
      cases hen : s.trnEnabled with
      | true => exact .inr (.inr ⟨rfl, rfl, by simpa [hen] using hwrites.1⟩)
      | false => exact absurd (by simpa [hen] using hwrites.1) hne

/-- Settles O27: a free lock leaves only TxIdle to send from, and a `TMO` changes nothing in TxIdle. -/
theorem sendPhasesInOrder : Obligations.SendPhasesInOrder := fun i s t hs h hne => by
  obtain ⟨rfl, ht⟩ | ⟨rfl, hts, ht⟩ | ⟨hi, hlock, ht⟩ | ⟨rfl, hts, ht⟩ | hsame := exec_txState h
  · exact .inr (.inr (.inr ⟨ht, rfl⟩))
  · have hgap : s.blk.txState = .gap := by
      cases hphase : s.blk.txState with
      | txIdle => exact absurd (ht.trans hphase.symm) hne
      | sending => exact absurd hphase hts
      | gap => rfl
    exact .inr (.inr (.inl ⟨hgap, ht, rfl⟩))
  · obtain ⟨-, -, -, -, -, hidle, -⟩ := State.quiescent_of_lock_free hs hlock
    exact .inl ⟨hidle, ht, hi⟩
  · exact .inr (.inl ⟨hts, ht, rfl⟩)
  · exact absurd hsame hne

end Sys2Proof.Machine
end

section
/-! PROOF. A local send under way (spec R61, R126, R127): what of its frame has been accepted, whatever operations but
`RST` come between, until its SNDDONE. -/

namespace Sys2Proof.Machine

/-! ### The frame being sent (R28, R61) -/

@[simp] theorem State.txFrame_length (s : State) : s.txFrame.length = s.blk.txLen.toNat := s.bytes_length _ _ _

/-- The transmitting side holds the frame and the bytes accepted of it. -/
theorem State.txFrame_of_txView {s t : State} (hv : t.txView = s.txView) :
    t.txFrame = s.txFrame ∧ t.blk.txIdx = s.blk.txIdx ∧ t.blk.txState = s.blk.txState ∧ t.env.sent = s.env.sent := by
  simp only [State.txView, Prod.mk.injEq] at hv
  obtain ⟨-, hgen, -, hts, htxb, hlen, hidx, -, hsent⟩ := hv
  refine ⟨?_, hidx, hts, hsent⟩
  rw [State.txFrame, State.txFrame, hlen]
  exact State.bytes_congr fun a _ _ => State.byte_congr (w := .txb) htxb hgen a

/-- The first bytes of a list read from a buffer. -/
theorem State.bytes_take {s : State} {w : Buffer} {a k n : Nat} (h : k ≤ n) :
    (s.bytes w a n).take k = s.bytes w a k :=
  List.ext_getElem (by simp [h]) fun _ _ _ => by rw [List.getElem_take, State.bytes_getElem, State.bytes_getElem]

/-- During a send the bytes accepted are the first `tx_idx` of the frame (R61). -/
theorem State.Inv.sent_eq_take {s : State} (hs : s.Inv) (hbusy : s.blk.txState ≠ .txIdle) :
    s.env.sent = s.txFrame.take s.blk.txIdx.toNat := by
  obtain ⟨-, -, ⟨-, hframe, -⟩, -, -, -, -, -, hsent⟩ := hs
  obtain ⟨-, -, -, hle, -⟩ := hframe hbusy
  rw [hsent hbusy, State.txFrame, State.bytes_take hle]

/-- A send in progress holds the lock (R38). -/
theorem State.Inv.locked_of_busy {s : State} (hs : s.Inv) (hbusy : s.blk.txState ≠ .txIdle) :
    s.blk.txLock = true := by
  obtain ⟨-, ⟨-, -, hsending, -⟩, -⟩ := hs
  exact hsending hbusy

/-! ### What operations do to a send under way -/

/-- From `s` to `t`, by operations whose actions `t` reports, one send goes on: its frame stays, what was put on the line
was accepted of it, and once the line has been turned back the send is in its gap. -/
structure State.SendGoesOn (s t : State) : Prop where
  busy : t.blk.txState ≠ .txIdle
  frame : t.txFrame = s.txFrame
  sent : t.env.sent = s.env.sent ++ lineBytes t.actions
  turned : s.blk.txState = .gap ∨ .dir .receive ∈ t.actions → t.blk.txState = .gap

theorem State.SendGoesOn.trans {s u v : State} (h : s.SendGoesOn u) (h' : u.SendGoesOn v) :
    s.SendGoesOn (u.reportsAfter v) where
  busy := h'.busy
  frame := h'.frame.trans h.frame
  sent := by
    rw [State.reportsAfter_env, State.reportsAfter_actions, lineBytes_append, h'.sent, h.sent, List.append_assoc]
  turned hback := by
    obtain hgap | hmem := hback
    · exact h'.turned (.inl (h.turned (.inl hgap)))
    · obtain hu | hv := List.mem_append.mp hmem
      · exact h'.turned (.inl (h.turned (.inr hu)))
      · exact h'.turned (.inr hv)

/-- An operation that acts neither on the transmitting side nor on the line lets a send go on. -/
theorem State.SendGoesOn.of_txView {s t : State} (hbusy : s.blk.txState ≠ .txIdle) (hv : t.txView = s.txView)
    (hline : lineBytes t.actions = []) (hdir : .dir .receive ∉ t.actions) : s.SendGoesOn t := by
  obtain ⟨hframe, -, hts, hsent⟩ := State.txFrame_of_txView hv
  exact ⟨hts ▸ hbusy, hframe, by rw [hsent, hline, List.append_nil],
    fun hback => hts.trans (hback.resolve_right hdir)⟩

theorem tmoFlush_txView (s : State) : (tmoFlush s).txView = s.txView := by
  obtain ⟨_, _, _, _, h⟩ := tmoFlush_frame s
  rw [h]
  rfl

/-- A `TMO` without SNDDONE does not act on a send under way (R103). -/
theorem execTmo_txView {s t : State} (h : execTmo s = .next t) (hbusy : s.blk.txState ≠ .txIdle)
    (hdone : .snddone ∉ t.actions) : t.txView = s.txView := by
  rw [execTmo_actions h, mem_timeoutActions] at hdone
  obtain ⟨-, rfl⟩ := execTmo_next.mp h
  split
  · next harm =>
    have hts : s.blk.txState = .sending := by
      cases hphase : s.blk.txState with
      | txIdle => exact absurd hphase hbusy
      | sending => rfl
      | gap => exact absurd ⟨harm, .inr ⟨hphase, rfl⟩⟩ hdone
    obtain ⟨-, hrelease⟩ | ⟨hother, -⟩ | ⟨hother, -⟩ := tmoRelease_cases (tmoFlush (s.attempt .performed).timerFired)
    · rw [hrelease, tmoFlush_txView]
      rfl
    all_goals simp [hts] at hother
  · rfl

/-- Every operation but `RST` lets a send go on until its SNDDONE, and holds every other (R121, R127). -/
theorem exec_sendGoesOn {i : Instr} {s t : State} (hs : s.Inv) (hbusy : s.blk.txState ≠ .txIdle) (hrst : i ≠ .rst)
    (h : exec i s = .next t) (hdone : .snddone ∉ t.actions) :
    s.SendGoesOn t ∧ ∀ m, i = .snd m → t.outcomes = [.held] := by
  have hline := exec_lineBytes h
  have hdir : .dir .receive ∈ t.actions → i = .trn := by
    rw [exec_actions hs h, dir_mem_operationActions]
    rintro (⟨hi, -⟩ | ⟨-, -, hd⟩ | ⟨hi, -⟩)
    · exact absurd hi hrst
    · cases hd
    · exact hi
  cases i with
  | rst => exact absurd rfl hrst
  | rxb b =>
    obtain ⟨_, _, _, _, _, _, -, rfl⟩ := execRxb_frame h
    exact ⟨.of_txView hbusy rfl (by simpa using hline) (by simpa using hdir), by simp⟩
  | tmo => exact ⟨.of_txView hbusy (execTmo_txView h hbusy hdone) (by simpa using hline) (by simpa using hdir), by simp⟩
  | snd m =>
    obtain ⟨-, -, rfl⟩ := execSnd_next.mp h
    rw [if_pos (hs.locked_of_busy hbusy)]
    exact ⟨.of_txView hbusy rfl rfl (by simp), fun _ _ => rfl⟩
  | txb =>
    refine ⟨?_, by simp⟩
    obtain ⟨-, ht⟩ := execTxb_next.mp h
    split at ht
    · obtain ⟨-, rfl⟩ := ht
      exact ⟨hbusy, rfl, rfl, by simp⟩
    · obtain rfl := ht
      exact .of_txView hbusy rfl rfl (by simp)
  | trn =>
    refine ⟨?_, by simp⟩
    obtain ⟨-, rfl⟩ := execTrn_next.mp h
    split
    · exact ⟨by simp, rfl, (List.append_nil _).symm, fun _ => rfl⟩
    · exact .of_txView hbusy rfl rfl (by simp)

theorem sendsHeld_cons {i : Instr} {ops : List Instr} {w : OutcomeWord} {words : List OutcomeWord} :
    SendsHeld (i :: ops) (w :: words) ↔ (∀ m, i = .snd m → w = .held) ∧ SendsHeld ops words := by
  simp [SendsHeld]

theorem performAll_sendGoesOn {ops : List Instr} {s t : State} (hs : s.Inv) (hbusy : s.blk.txState ≠ .txIdle)
    (hrst : .rst ∉ ops) (h : performAll ops s = .next t) (hdone : .snddone ∉ t.actions) :
    s.SendGoesOn t ∧ SendsHeld ops t.outcomes := by
  induction ops generalizing s t with
  | nil =>
    obtain rfl := performAll_nil.mp h
    exact ⟨.of_txView hbusy rfl rfl (by simp), by simp [SendsHeld]⟩
  | cons i is ih =>
    obtain ⟨u, v, hu, hv, rfl⟩ := performAll_cons.mp h
    obtain ⟨hrst', hrst''⟩ : i ≠ .rst ∧ .rst ∉ is := by simpa [eq_comm] using hrst
    obtain ⟨hdone', hdone''⟩ : .snddone ∉ u.actions ∧ .snddone ∉ v.actions := by simpa using hdone
    obtain ⟨hgo, hheld⟩ := exec_sendGoesOn hs hbusy hrst' hu hdone'
    obtain ⟨hgo', hheld'⟩ := ih (exec_inv hs hu) hgo.busy hrst'' hv hdone''
    obtain ⟨-, -, w, hw⟩ := exec_keeps_config hu
    refine ⟨hgo.trans hgo', ?_⟩
    rw [State.reportsAfter_outcomes, hw]
    exact sendsHeld_cons.mpr ⟨fun m hm => by simpa [hw] using hheld m hm, hheld'⟩

/-! ### From the performed SND on (R121, R127) -/

theorem exec_snd_begins {s u : State} {m : Message} (hlock : s.blk.txLock = false) (h : exec (.snd m) s = .next u) :
    u = sndBegin m (s.attempt .performed) := by
  obtain ⟨-, -, rfl⟩ := execSnd_next.mp h
  simp [hlock]

/-- What the line has of the send that `SND` begins, as long as it goes on (R61, R127). -/
theorem lineBytes_of_sendGoesOn {s v : State} {m : Message} (hm : m.wf s.cmdBytes = true) (hv : v.Inv)
    (h : (sndBegin m s).SendGoesOn v) :
    lineBytes v.actions = (serialize s.cmdBytes m).take v.blk.txIdx.toNat
    ∧ (.dir .receive ∈ v.actions → lineBytes v.actions = serialize s.cmdBytes m) := by
  have hframe : v.txFrame = serialize s.cmdBytes m := h.frame.trans (sndBegin_txFrame hm)
  have hline : lineBytes v.actions = v.txFrame.take v.blk.txIdx.toNat :=
    h.sent.symm.trans (hv.sent_eq_take h.busy)
  refine ⟨hframe ▸ hline, fun hback => ?_⟩
  obtain ⟨-, -, ⟨-, -, hall, -⟩, -⟩ := hv
  rw [hline, hall (h.turned (.inr hback)), ← State.txFrame_length, List.take_length, hframe]

/-- Settles O47: the send that `SND` begins goes on, and the line has what was accepted of its frame. -/
theorem sentBytesAreTheFrame : Obligations.SentBytesAreTheFrame := fun s t m ops hs hlock hm hrst h hdone => by
  obtain ⟨u, v, hu, hv, rfl⟩ := performAll_cons.mp h
  have hinv := exec_inv hs hu
  obtain rfl := exec_snd_begins hlock hu
  obtain ⟨-, hdone'⟩ : _ ∧ .snddone ∉ v.actions := not_or.mp (mt List.mem_append.mpr hdone)
  obtain ⟨hgo, hheld⟩ := performAll_sendGoesOn hinv (by simp [sndBegin]) hrst hv hdone'
  obtain ⟨hline, hturned⟩ := lineBytes_of_sendGoesOn (s := s.attempt .performed) hm (performAll_inv hinv hv) hgo
  refine ⟨hline, fun hback => hturned (by simpa [sndBegin] using hback), hheld, fun w hw => ?_⟩
  obtain ⟨t', x, ht', hx, rfl⟩ := performAll_append.mp hw
  obtain rfl := next_eq_next.mp (ht'.symm.trans h)
  obtain rfl := execRst_next.mp ((performAll_singleton .rst _).symm.trans hx)
  rw [State.reportsAfter_actions, lineBytes_append]
  exact (List.append_nil _).trans hline ▸ List.take_prefix _ _

end Sys2Proof.Machine
end

section
/-! PROOF. One whole local send (spec R90, R126), with its bytes heard by the node itself or not. -/

namespace Sys2Proof.Machine

/-! ### The bytes still to be accepted (R122) -/

/-- Sending, with the bytes `L` of the frame still to be accepted. -/
abbrev State.SendsRest (L : List Byte) (s : State) : Prop :=
  s.blk.txState = .sending ∧ s.txFrame.drop s.blk.txIdx.toNat = L

theorem sndBegin_sendsRest {m : Message} {s : State} (hm : m.wf s.cmdBytes = true) :
    (sndBegin m s).SendsRest (serialize s.cmdBytes m) :=
  ⟨rfl, sndBegin_txFrame hm⟩

/-- With a byte left `TXB` is enabled, and presents it (R122). -/
theorem State.SendsRest.txEnabled {b : Byte} {L : List Byte} {s : State} (h : s.SendsRest (b :: L)) :
    s.txEnabled = true ∧ s.txByte = b ∧ s.txFrame.drop (s.blk.txIdx.toNat + 1) = L := by
  obtain ⟨hts, hrest⟩ := h
  have hlt : s.blk.txIdx.toNat < s.txFrame.length := by
    by_contra hge
    simp [List.drop_of_length_le (Nat.le_of_not_lt hge)] at hrest
  rw [List.drop_eq_getElem_cons hlt] at hrest
  obtain ⟨hbyte, hrest'⟩ := List.cons.inj hrest
  refine ⟨State.txEnabled_iff.mpr ⟨hts, s.txFrame_length ▸ hlt⟩, ?_, hrest'⟩
  rw [← hbyte, State.txByte]
  simp only [State.txFrame, State.bytes_getElem, Nat.zero_add]

/-- With no byte left `TRN` is enabled (R39, R123). -/
theorem State.SendsRest.trnEnabled {s : State} (hs : s.Inv) (h : s.SendsRest []) : s.trnEnabled = true := by
  obtain ⟨hts, hrest⟩ := h
  obtain ⟨-, -, ⟨-, hframe, -⟩, -⟩ := hs
  obtain ⟨-, -, -, hle, -⟩ := hframe (by simp [hts])
  have hge := s.txFrame_length ▸ List.drop_eq_nil_iff.mp hrest
  exact State.trnEnabled_iff.mpr ⟨hts, BitVec.eq_of_toNat_eq (hle.antisymm hge)⟩

/-- The sink accepts the next byte; the assembler takes no notice (R122). -/
theorem exec_txb_sendsRest {b : Byte} {L : List Byte} {s t : State} (hrest : s.SendsRest (b :: L))
    (h : exec .txb s = .next t) : t.actions = [.tx b] ∧ t.SendsRest L ∧ t.rxFrame = s.rxFrame := by
  obtain ⟨hen, hbyte, hdrop⟩ := hrest.txEnabled
  have hrx := exec_keeps_rxFrame h (by simp) (by simp) (by simp)
  obtain rfl := exec_txb_of_enabled hen h
  exact ⟨by rw [← hbyte]; rfl, ⟨hrest.1, (congrArg (s.txFrame.drop ·) (txIdx_succ hen)).trans hdrop⟩, hrx⟩

theorem exec_rxb_sendsRest {b : Byte} {L : List Byte} {s t : State} (hrest : s.SendsRest L)
    (h : exec (.rxb b) s = .next t) : t.SendsRest L := by
  obtain ⟨_, _, _, _, _, _, -, rfl⟩ := execRxb_frame h
  exact hrest

/-! ### The bytes of a frame, one after another (R90) -/

/-- Without loopback: the sink accepts every byte left. -/
theorem performAll_txbs {L : List Byte} {s t : State} (hrest : s.SendsRest L)
    (h : performAll (List.replicate L.length .txb) s = .next t) :
    t.actions = L.map .tx ∧ t.SendsRest [] ∧ t.rxFrame = s.rxFrame := by
  induction L generalizing s t with
  | nil =>
    obtain rfl := performAll_nil.mp h
    exact ⟨rfl, hrest, rfl⟩
  | cons b L ih =>
    obtain ⟨u, v, hu, hv, rfl⟩ := performAll_cons.mp h
    obtain ⟨hact, hrest', hrx⟩ := exec_txb_sendsRest hrest hu
    obtain ⟨hact', hrest'', hrx'⟩ := ih hrest' hv
    exact ⟨by rw [State.reportsAfter_actions, hact, hact']; rfl, hrest'', hrx'.trans hrx⟩

/-- With loopback: every byte left is accepted and then heard, and the last makes the frame whole. -/
theorem performAll_txbs_heard {L F : List Byte} {s t : State} (hs : s.Inv) (hrest : s.SendsRest L)
    (hF : WholeFrame s.cmdBytes F) (hrx : s.rxFrame ++ L = F) (hne : s.rxFrame ≠ F)
    (h : performAll (L.flatMap fun b => [.txb, .rxb b]) s = .next t) :
    t.actions = L.flatMap (fun b => [.tx b, .tstart]) ++ [frameAction s.cmdBytes F]
      ∧ t.SendsRest [] ∧ t.rxFrame = [] := by
  induction L generalizing s t with
  | nil => exact absurd ((List.append_nil _).symm.trans hrx) hne
  | cons b L ih =>
    obtain ⟨u, _, hu, hrun, rfl⟩ := performAll_cons.mp h
    obtain ⟨v, w, hv, hw, rfl⟩ := performAll_cons.mp hrun
    obtain ⟨hact, hrest', hrxu⟩ := exec_txb_sendsRest hrest hu
    have hinv := exec_inv hs hu
    have hrest'' := exec_rxb_sendsRest hrest' hv
    have hcmd : u.cmdBytes = s.cmdBytes := (exec_keeps_config hu).1
    have hcmd' : v.cmdBytes = s.cmdBytes := (exec_keeps_config hv).1.trans hcmd
    have hfeed := execRxb_feeds hinv hv
    have hwhole_iff : u.FrameEnds b ↔ WholeFrame s.cmdBytes (s.rxFrame ++ [b]) := by
      rw [← hcmd, ← hrxu]
      rfl
    rw [hwhole_iff, hcmd, hrxu] at hfeed
    rw [List.append_cons] at hrx
    simp only [State.reportsAfter_actions, hact]
    obtain ⟨hends, hact', hrxv⟩ | ⟨hends, hact', hrxv⟩ := hfeed
    · have hwhole : s.rxFrame ++ [b] = F := hF.eq_of_prefix hends (hrx ▸ List.prefix_append _ _)
      obtain rfl : L = [] := List.append_right_eq_self.mp (hrx.trans hwhole.symm)
      obtain rfl := performAll_nil.mp hw
      exact ⟨by rw [hact', hwhole]; rfl, hrest'', hrxv⟩
    · obtain ⟨hact'', hdone, hrxw⟩ := ih (exec_inv hinv hv) hrest'' (hcmd' ▸ hF) (hrxv ▸ hrx)
        (fun hwhole => hends (hrxv.symm.trans hwhole ▸ hF)) hw
      exact ⟨by rw [hact', hact'', hcmd']; rfl, hdone, hrxw⟩

/-! ### The turnaround and the gap (R123, R103) -/

/-- After the last byte the line turns, and the timeout ends the send; nothing is in progress then. -/
theorem performAll_turnaround {s t : State} (hs : s.Inv) (hrest : s.SendsRest []) (hrx : s.rxFrame = [])
    (h : performAll [.trn, .tmo] s = .next t) :
    t.actions = [.dir .receive, .tstart, .snddone] ∧ t.Quiescent := by
  obtain ⟨u, v, hu, hv, rfl⟩ := performAll_cons.mp h
  rw [performAll_singleton] at hv
  have hfa : s.blk.faState = .idle := (hs.assembler_of_rxCnt.1 (State.rxFrame_eq_nil.mp hrx)).1
  have hinv := exec_inv (exec_inv hs hu) hv
  have hstart : s.started = true := (execTrn_next.mp hu).1
  obtain rfl := next_eq_next.mp ((exec_trn_of_enabled hstart (hrest.trnEnabled hs)).symm.trans hu)
  obtain ⟨-, -, -, hlock, -⟩ | ⟨hword, -⟩ := execTmo_lock_phase hv
  · refine ⟨?_, State.quiescent_of_lock_free hinv hlock⟩
    rw [State.reportsAfter_actions, execTmo_actions hv]
    simp [timeoutActions, hfa]
  · exact absurd (hword (execTmo_of_armed rfl hv).1) (by simp)

/-! ### The whole send (R126) -/

theorem State.RunsLike.quiescent {s t : State} (h : s.RunsLike t) (hq : s.Quiescent) : t.Quiescent := by
  obtain ⟨e, hsame⟩ := h
  obtain ⟨buf, txb, gen, rfl⟩ := hsame.exists_withContents
  exact hq

/-- A send whose bytes are accepted by the operations `mid`, which emit `acts`. -/
theorem performAll_whole_send {mid : List Instr} {acts : List Action} {s : State} {m : Message} (hq : s.Quiescent)
    (hstart : s.started = true) (hm : m.wf s.cmdBytes = true) (hmid : ∀ m', .snd m' ∉ mid)
    (hrun : ∀ u v : State, u.Inv → u.cmdBytes = s.cmdBytes → u.SendsRest (serialize s.cmdBytes m) → u.rxFrame = [] →
      performAll mid u = .next v → v.actions = acts ∧ v.SendsRest [] ∧ v.rxFrame = []) :
    ∃ t, performAll (.snd m :: (mid ++ [.trn, .tmo])) s = .next t ∧ t.Quiescent
      ∧ t.actions = .dir .transmit :: (acts ++ [.dir .receive, .tstart, .snddone]) := by
  obtain ⟨s₀, hs₀, ⟨-, hcnt, -, hlock, -⟩, hstart₀, hcmd₀, hlike⟩ := hq.exists_runsLike
  rw [← hstart₀] at hstart
  rw [← hcmd₀] at hm hrun
  have hwf : ∀ i ∈ Instr.snd m :: (mid ++ [.trn, .tmo]), i.wf s₀.cmdBytes = true := by
    intro i hi
    cases i with
    | snd m' =>
      obtain rfl : m' = m := by simpa [hmid] using hi
      exact hm
    | _ => rfl
  obtain ⟨t, ht, -⟩ := performAll_answers hs₀ hstart hwf
  obtain ⟨t', ht', hlike'⟩ := performAll_runsLike hlike ht
  refine ⟨t', ht', ?_⟩
  obtain ⟨u, _, hu, hrest, rfl⟩ := performAll_cons.mp ht
  obtain ⟨v, w, hv, hw, rfl⟩ := performAll_append.mp hrest
  have hinv := exec_inv hs₀ hu
  obtain rfl := exec_snd_begins hlock hu
  obtain ⟨hact, hdone, hrx⟩ := hrun _ v hinv rfl (sndBegin_sendsRest (s := s₀.attempt .performed) hm)
    (State.rxFrame_eq_nil.mpr hcnt) hv
  obtain ⟨hact', hq'⟩ := performAll_turnaround (performAll_inv hinv hv) hdone hrx hw
  refine ⟨hlike'.quiescent hq', hlike'.reports.1.trans ?_⟩
  simp only [State.reportsAfter_actions, hact, hact']
  rfl

/-- Settles O46: both ways of sending, by the operations between the `SND` and the turnaround. -/
theorem wholeLocalSend : Obligations.WholeLocalSend := fun s m hq hstart hm => by
  have hF := wholeFrame_serialize hm
  constructor
  · refine performAll_whole_send hq hstart hm (by simp) fun u v _ _ hrest hrx hv => ?_
    obtain ⟨hact, hdone, hrx'⟩ := performAll_txbs hrest hv
    exact ⟨hact, hdone, hrx'.trans hrx⟩
  · have hsend := performAll_whole_send hq hstart hm
      (mid := (serialize s.cmdBytes m).flatMap fun b => [.txb, .rxb b]) (by simp) fun u v hu hcmd hrest hrx hv => by
        have hFu : WholeFrame u.cmdBytes (serialize s.cmdBytes m) := by rwa [hcmd]
        have hheard := performAll_txbs_heard hu hrest hFu (by rw [hrx, List.nil_append]) (hrx ▸ hF.ne_nil.symm) hv
        rwa [hcmd, frameAction_serialize hm] at hheard
    simp only [List.append_assoc] at hsend
    exact hsend

end Sys2Proof.Machine
end

section
/-! PROOF. `RST` from any state, and the outcome of every operation in every class of state (spec R140, R141). -/

namespace Sys2Proof.Machine

/-! ### The state RST leaves (R33, R140) -/

theorem State.resetBlock_quiescent (s : State) : s.resetBlock.Quiescent :=
  ⟨rfl, rfl, rfl, rfl, rfl, rfl, rfl, rfl, rfl⟩

/-- Neither buffer lists a byte any more: each is unspecified (log 4). -/
theorem State.resetBlock_byte (s : State) (w : Buffer) (a : Nat) :
    s.resetBlock.byte w a = Config.unspecifiedByte (s.resetGen + 1) w a := by
  cases w <;> rfl

/-! ### The classes of R141 -/

/-- While Sending, one of `TXB` and `TRN` is enabled: `tx_idx` never passes `tx_len` (R39). -/
theorem State.Inv.trnEnabled_of_not_txEnabled {s : State} (hs : s.Inv) (hts : s.blk.txState = .sending)
    (hen : s.txEnabled = false) : s.trnEnabled = true := by
  obtain ⟨-, -, ⟨-, hframe, -⟩, -⟩ := hs
  obtain ⟨-, -, -, hle, -⟩ := hframe (by simp [hts])
  have hall : s.blk.txLen.toNat ≤ s.blk.txIdx.toNat := by simpa [State.txEnabled, hts] using hen
  exact State.trnEnabled_iff.mpr ⟨hts, by bv_omega⟩

/-- The five classes partition the states that meet the invariant: each with the registers and the guards that tell it
apart, and with the timer armed in L and G (R38, R40, R141). -/
theorem State.Inv.classOf_cases {s : State} (hs : s.Inv) :
    (s.classOf = .quiescent ∧ s.blk.txLock = false ∧ s.blk.txState = .txIdle)
    ∨ (s.classOf = .locked ∧ s.blk.txLock = true ∧ s.blk.txState = .txIdle ∧ s.blk.timerArmed = true)
    ∨ (s.classOf = .sendingMore ∧ s.blk.txLock = true ∧ s.blk.txState = .sending ∧ s.txEnabled = true)
    ∨ (s.classOf = .sendingDone ∧ s.blk.txLock = true ∧ s.blk.txState = .sending ∧ s.trnEnabled = true)
    ∨ (s.classOf = .gap ∧ s.blk.txLock = true ∧ s.blk.txState = .gap ∧ s.blk.timerArmed = true) := by
  have hbusy := hs.locked_of_busy
  cases hts : s.blk.txState with
  | txIdle =>
    cases hlock : s.blk.txLock with
    | false => simp [State.classOf, hlock]
    | true =>
      obtain ⟨-, -, -, hrel, -⟩ := hs
      have harm : s.blk.timerArmed = true := by simpa [hts] using hrel hlock
      simp [State.classOf, hlock, hts, harm]
  | sending =>
    have hlock := hbusy (by simp [hts])
    cases hen : s.txEnabled with
    | true =>
      obtain ⟨-, hlt⟩ := State.txEnabled_iff.mp hen
      simp [State.classOf, hlock, hts, hlt]
    | false =>
      have hdue := hs.trnEnabled_of_not_txEnabled hts hen
      obtain ⟨-, hall⟩ := State.trnEnabled_iff.mp hdue
      simp [State.classOf, hlock, hts, hall, hdue]
  | gap =>
    obtain ⟨-, ⟨-, -, -, hgap⟩, -⟩ := hs
    simp [State.classOf, hbusy (by simp [hts]), hts, hgap hts]

/-- Q is the class in which the lock is free, which `SND` asks for (R121). -/
theorem State.Inv.classOf_eq_quiescent {s : State} (hs : s.Inv) : s.classOf = .quiescent ↔ s.blk.txLock = false := by
  obtain ⟨hc, h⟩ | ⟨hc, h⟩ | ⟨hc, h⟩ | ⟨hc, h⟩ | ⟨hc, h⟩ := hs.classOf_cases <;> simp [hc, h]

theorem State.Inv.classOf_eq_gap {s : State} (hs : s.Inv) : s.classOf = .gap ↔ s.blk.txState = .gap := by
  obtain ⟨hc, h⟩ | ⟨hc, h⟩ | ⟨hc, h⟩ | ⟨hc, h⟩ | ⟨hc, h⟩ := hs.classOf_cases <;> simp [hc, h]

theorem State.Inv.classOf_sending {s : State} (hs : s.Inv) :
    s.classOf = .sendingMore ∨ s.classOf = .sendingDone ↔ s.blk.txState = .sending := by
  obtain ⟨hc, h⟩ | ⟨hc, h⟩ | ⟨hc, h⟩ | ⟨hc, h⟩ | ⟨hc, h⟩ := hs.classOf_cases <;> simp [hc, h]

/-- S< is the class in which `TXB` is enabled (R122). -/
theorem State.Inv.classOf_eq_sendingMore {s : State} (hs : s.Inv) :
    s.classOf = .sendingMore ↔ s.txEnabled = true := by
  obtain ⟨hc, -, hts⟩ | ⟨hc, -, hts, -⟩ | ⟨hc, -, -, hen⟩ | ⟨hc, -, -, hdue⟩ | ⟨hc, -, hts, -⟩ := hs.classOf_cases
  · simp [hc, State.txEnabled, hts]
  · simp [hc, State.txEnabled, hts]
  · simp [hc, hen]
  · simp [hc, State.txEnabled_of_trnEnabled hdue]
  · simp [hc, State.txEnabled, hts]

/-- S= is the class in which `TRN` is enabled (R123). -/
theorem State.Inv.classOf_eq_sendingDone {s : State} (hs : s.Inv) :
    s.classOf = .sendingDone ↔ s.trnEnabled = true := by
  obtain ⟨hc, -, hts⟩ | ⟨hc, -, hts, -⟩ | ⟨hc, -, -, hen⟩ | ⟨hc, -, -, hdue⟩ | ⟨hc, -, hts, -⟩ := hs.classOf_cases
  · simp [hc, State.trnEnabled, hts]
  · simp [hc, State.trnEnabled, hts]
  · simp [hc, mt (State.txEnabled_of_trnEnabled (s := s)) (by simp [hen])]
  · simp [hc, hdue]
  · simp [hc, State.trnEnabled, hts]

theorem State.Inv.armed_of_locked_or_gap {s : State} (hs : s.Inv) (hc : s.classOf = .locked ∨ s.classOf = .gap) :
    s.blk.timerArmed = true := by
  obtain ⟨h, -⟩ | ⟨-, -, -, harm⟩ | ⟨h, -⟩ | ⟨h, -⟩ | ⟨-, -, -, harm⟩ := hs.classOf_cases
  · simp [h] at hc
  · exact harm
  · simp [h] at hc
  · simp [h] at hc
  · exact harm

/-! ### The rows of R141's table whose word depends on the class -/

theorem outcomeTable_snd {c : CmdBytes} {armed : Bool} {k : StateClass} {m : Message} (hm : m.wf c = true) :
    outcomeTable c armed k (.snd m) = some (if k = .quiescent then .performed else .held) := by
  rw [outcomeTable, if_pos hm, apply_ite some]

theorem outcomeTable_snd_illFormed {c : CmdBytes} {armed : Bool} {k : StateClass} {m : Message}
    (hm : m.wf c = false) : outcomeTable c armed k (.snd m) = none := by
  simp [outcomeTable, hm]

theorem outcomeTable_txb (c : CmdBytes) (armed : Bool) (k : StateClass) :
    outcomeTable c armed k .txb = some (if k = .sendingMore then .performed else .notEnabled) := by
  rw [outcomeTable, apply_ite some]

theorem outcomeTable_trn (c : CmdBytes) (armed : Bool) (k : StateClass) :
    outcomeTable c armed k .trn = some (if k = .sendingDone then .performed else .notEnabled) := by
  rw [outcomeTable, apply_ite some]

/-! ### The cells of R141's table -/

/-- A cell of R141's table that holds a word: the operation answers with it, a performed `TMO` treats the lock as the cell
says, and what is not performed changes no register and emits nothing (R10). -/
def State.AnswersWith (s : State) (i : Instr) (w : OutcomeWord) : Prop :=
  ∃ t, exec i s = .next t ∧ t.outcomes = [w]
    ∧ (i = .tmo ∧ w = .performed →
        t.blk.txLock = decide (s.classOf = .sendingMore ∨ s.classOf = .sendingDone)
        ∧ (.snddone ∈ t.actions ↔ s.classOf = .gap))
    ∧ (w ≠ .performed → t.blk = s.blk ∧ t.actions = [])

theorem State.AnswersWith.of_unperformed {s : State} {i : Instr} {w : OutcomeWord} (hw : w ≠ .performed)
    (h : exec i s = .next (s.attempt w)) : s.AnswersWith i w :=
  ⟨_, h, rfl, fun hp => absurd hp.2 hw, fun _ => ⟨rfl, rfl⟩⟩

theorem State.AnswersWith.of_performed {s t : State} {i : Instr} (hi : i ≠ .tmo) (h : exec i s = .next t)
    (hword : t.outcomes = [.performed]) : s.AnswersWith i .performed :=
  ⟨t, h, hword, fun hp => absurd hp.1 hi, fun hw => absurd rfl hw⟩

theorem State.Inv.rxb_answers {s : State} (hs : s.Inv) (hstart : s.started = true) (b : Byte) :
    s.AnswersWith (.rxb b) .performed := by
  obtain ⟨t, h⟩ := exec_answers (i := .rxb b) hs hstart rfl
  obtain ⟨_, _, _, _, _, _, -, ht⟩ := execRxb_frame h
  exact .of_performed (by simp) h (by rw [ht])

/-- `TMO` with the timer armed: the lock is kept while Sending, and SNDDONE ends the gap (R103). -/
theorem State.Inv.tmo_answers {s : State} (hs : s.Inv) (hstart : s.started = true)
    (harm : s.blk.timerArmed = true) : s.AnswersWith .tmo .performed := by
  obtain ⟨t, h⟩ := exec_answers (i := .tmo) hs hstart rfl
  obtain ⟨hword, -⟩ := execTmo_of_armed harm h
  refine ⟨t, h, hword, fun _ => ⟨?_, ?_⟩, fun hw => absurd rfl hw⟩
  · simp only [hs.classOf_sending]
    obtain ⟨-, hts, -, hlock, -⟩ | ⟨hts, hlock, -⟩ := execTmo_lock_phase h
    · simp [hlock, hts]
    · have hsending := hts hword
      simp [hlock, hsending, hs.locked_of_busy (by simp [hsending])]
  · rw [execTmo_actions h, mem_timeoutActions, hs.classOf_eq_gap]
    simp [harm]

theorem exec_tmo_of_unarmed {s : State} (hstart : s.started = true) (harm : s.blk.timerArmed = false) :
    exec .tmo s = .next (s.attempt .ignored) :=
  execTmo_next.mpr ⟨hstart, by simp [harm]⟩

theorem State.Inv.snd_answers {s : State} (hs : s.Inv) (hstart : s.started = true) {m : Message}
    (hm : m.wf s.cmdBytes = true) :
    s.AnswersWith (.snd m) (if s.classOf = .quiescent then .performed else .held) := by
  simp only [hs.classOf_eq_quiescent]
  cases hlock : s.blk.txLock with
  | false => exact .of_performed (by simp) (exec_snd_of_free hstart hlock hm) rfl
  | true => exact .of_unperformed (by simp) (exec_snd_of_locked hstart hlock hm)

theorem State.Inv.txb_answers {s : State} (hs : s.Inv) (hstart : s.started = true) :
    s.AnswersWith .txb (if s.classOf = .sendingMore then .performed else .notEnabled) := by
  simp only [hs.classOf_eq_sendingMore]
  cases hen : s.txEnabled with
  | true =>
    obtain ⟨t, h⟩ := exec_answers (i := .txb) hs hstart rfl
    exact .of_performed (by simp) h (by rw [exec_txb_of_enabled hen h]; rfl)
  | false => exact .of_unperformed (by simp) (exec_txb_of_not_enabled hstart hen)

theorem State.Inv.trn_answers {s : State} (hs : s.Inv) (hstart : s.started = true) :
    s.AnswersWith .trn (if s.classOf = .sendingDone then .performed else .notEnabled) := by
  simp only [hs.classOf_eq_sendingDone]
  cases hen : s.trnEnabled with
  | true => exact .of_performed (by simp) (exec_trn_of_enabled hstart hen) rfl
  | false => exact .of_unperformed (by simp) (exec_trn_of_not_enabled hstart hen)

/-! ### The obligations -/

/-- Settles O23, row by row of the table. -/
theorem outcomeOfEveryOperation : Obligations.OutcomeOfEveryOperation := fun i s hs hstart => by
  refine ⟨?_, fun hc => State.quiescent_of_lock_free hs (hs.classOf_eq_quiescent.mp hc), hs.armed_of_locked_or_gap⟩
  cases i with
  | rst => exact State.AnswersWith.of_performed (by simp) (execRst_next.mpr rfl) rfl
  | rxb b => exact hs.rxb_answers hstart b
  | tmo =>
    cases harm : s.blk.timerArmed with
    | true => exact hs.tmo_answers hstart harm
    | false => exact State.AnswersWith.of_unperformed (by simp) (exec_tmo_of_unarmed hstart harm)
  | snd m =>
    cases hm : m.wf s.cmdBytes with
    | true =>
      rw [outcomeTable_snd hm]
      exact hs.snd_answers hstart hm
    | false =>
      rw [outcomeTable_snd_illFormed hm]
      exact exec_snd_of_illFormed hstart hm
  | txb =>
    rw [outcomeTable_txb]
    exact hs.txb_answers hstart
  | trn =>
    rw [outcomeTable_trn]
    exact hs.trn_answers hstart

/-- Settles O1: the registers and contents are those `RST` leaves, whatever the state and the other ports. -/
theorem rstReturnsToQuiescent : Obligations.RstReturnsToQuiescent := fun s =>
  ⟨_, execRst_next.mpr rfl, State.resetBlock_quiescent _, rfl, rfl, rfl, rfl, rfl, State.resetBlock_byte _,
    fun p hrst => by rw [clockCycle_next, if_pos hrst]; exact execRst_next.mpr rfl⟩

end Sys2Proof.Machine
end

section
/-! PROOF. What becomes of the operations a well-behaved environment offers (spec R166, R167, R173), and what each of the
two execution contexts may touch (spec R164). -/

namespace Sys2Proof.Machine

/-! ### What is offered (R166, R167, R173) -/

theorem State.AnswersWith.exists_next {s : State} {i : Instr} {w : OutcomeWord} (h : s.AnswersWith i w) :
    ∃ t, exec i s = .next t ∧ t.outcomes = [w] := by
  obtain ⟨t, ht, hword, -⟩ := h
  exact ⟨t, ht, hword⟩

theorem State.rst_answers (s : State) : s.AnswersWith .rst .performed :=
  .of_performed (by simp) (execRst_next.mpr rfl) rfl

/-- What is offered meets its guard, so that only a lock set can keep it from being performed: a send is then held
(R121). -/
theorem State.Offers.answersWith {s : State} {i : Instr} (hs : s.Inv) (h : s.Offers i) :
    s.AnswersWith i .performed ∨ (s.AnswersWith i .held ∧ ∃ m, i = .snd m) := by
  obtain ⟨hstart | rfl, htmo, htxb, htrn, hwf⟩ := h
  · cases i with
    | rst => exact .inl s.rst_answers
    | rxb b => exact .inl (hs.rxb_answers hstart b)
    | tmo =>
      have harm : s.blk.timerArmed = true := by
        obtain ⟨-, -, hflag⟩ := State.inv_iff.mp hs
        exact hflag.timer ▸ htmo rfl
      exact .inl (hs.tmo_answers hstart harm)
    | snd m =>
      have hanswer := hs.snd_answers hstart hwf
      split at hanswer
      · exact .inl hanswer
      · exact .inr ⟨hanswer, m, rfl⟩
    | txb =>
      have hanswer := hs.txb_answers hstart
      rw [if_pos (hs.classOf_eq_sendingMore.mpr (htxb rfl))] at hanswer
      exact .inl hanswer
    | trn =>
      have hanswer := hs.trn_answers hstart
      rw [if_pos (hs.classOf_eq_sendingDone.mpr (htrn rfl))] at hanswer
      exact .inl hanswer
  · exact .inl s.rst_answers

/-- Settles O24: what is offered is answered with one of the two words. -/
theorem offeredOperationsPerformedOrHeld : Obligations.OfferedOperationsPerformedOrHeld := fun i s hs hoffer => by
  obtain hperf | ⟨hheld, hsnd⟩ := hoffer.answersWith hs
  · obtain ⟨t, ht, hword⟩ := hperf.exists_next
    exact ⟨t, ht, .inl hword⟩
  · obtain ⟨t, ht, hword⟩ := hheld.exists_next
    exact ⟨t, ht, .inr ⟨hword, hsnd⟩⟩

/-! ### The two contexts (R164) -/

/-- Settles O28, from the frame of each operation. -/
theorem contextsKeepApart : Obligations.ContextsKeepApart := fun i s t h hrst => by
  cases i with
  | rst => exact absurd rfl hrst
  | rxb b =>
    obtain ⟨_, _, _, _, _, _, -, rfl⟩ := execRxb_frame h
    simp
  | tmo =>
    obtain ⟨_, _, _, _, _, _, _, _, _, _, _, rfl⟩ := execTmo_frame h
    simp
  | snd m =>
    obtain ⟨hframe, -⟩ := sndFrame s t m h
    rw [hframe]
    simp
  | txb =>
    obtain ⟨htxb, -, -⟩ := txbTrnRstFrame s t
    obtain ⟨hframe, -⟩ := htxb h
    rw [hframe]
    simp
  | trn =>
    obtain ⟨-, htrn, -⟩ := txbTrnRstFrame s t
    obtain ⟨hframe, -⟩ := htrn h
    rw [hframe]
    simp

end Sys2Proof.Machine
end

section
/-! PROOF. The order of the events of one clock cycle (spec R156), and what they leave of the lock. -/

namespace Sys2Proof.Machine

/-! ### The lock over the events of a cycle (R120, R156) -/

/-- The sink's byte and the turnaround leave the lock alone (R120). -/
theorem transmit_keeps_lock {p : PortIn} {s t : State} (h : performAll (transmitOps p s) s = .next t) :
    t.blk.txLock = s.blk.txLock := by
  obtain ⟨htxb, htrn, -⟩ := txbTrnRstFrame s t
  rw [transmitOps_eq] at h
  split at h
  · exact congrArg (·.blk.txLock) (htrn ((performAll_singleton .trn s).symm.trans h)).1
  · split at h
    · exact congrArg (·.blk.txLock) (htxb ((performAll_singleton .txb s).symm.trans h)).1
    · obtain rfl := performAll_nil.mp h
      rfl

/-- A cycle without a request leaves the lock as its receive event does: set by a byte, freed by a `TMO` outside Sending
(R100, R103). -/
theorem clockCycle_lock {p : PortIn} {s t : State} (hrst : p.rst = false) (hreq : p.sndReq = false)
    (h : clockCycle p s = .next t) :
    (p.rxValid = true → t.blk.txLock = true)
    ∧ (p.rxValid = false → p.tmrFired = true → s.blk.timerArmed = true → s.blk.txState ≠ .sending →
        t.blk.txLock = false) := by
  obtain ⟨u, v, hu, hv, ht⟩ := clockCycle_stages hrst h
  obtain rfl : t = u.reportsAfter v := by simpa [hreq, eq_comm] using ht
  rw [State.reportsAfter_blk, transmit_keeps_lock hv]
  constructor
  · intro hbyte
    rw [receiveOps, if_pos hbyte, performAll_singleton] at hu
    obtain ⟨-, hlock, -⟩ := execRxb_flags hu
    exact hlock
  · intro hbyte hfired harm hts
    rw [receiveOps, if_neg (by simp [hbyte]), if_pos hfired, performAll_singleton] at hu
    have hopen : (s.openCycle p).blk.timerArmed = s.blk.timerArmed ∧ (s.openCycle p).blk.txState = s.blk.txState := by
      rw [State.openCycle, State.stage_eq]
      exact ⟨rfl, rfl⟩
    obtain ⟨-, -, -, hlock, -⟩ | ⟨hword, -⟩ := execTmo_lock_phase hu
    · exact hlock
    · obtain ⟨hperf, -⟩ := execTmo_of_armed (hopen.1.trans harm) hu
      exact absurd (hopen.2.symm.trans (hword hperf)) hts

/-! ### The events in their order (R156) -/

/-- A byte drops a timer event of the same cycle (D18). -/
theorem clockCycle_of_byte {p : PortIn} (s : State) (hbyte : p.rxValid = true) :
    clockCycle p s = clockCycle { p with tmrFired := false } s := by
  have hops : cycleOps { p with tmrFired := false } s = cycleOps p s := by
    simp [cycleOps, receiveOps, transmitOps, hbyte]
  have hrun : runCycle p s = runCycle { p with tmrFired := false } s := by
    rw [runCycle, runCycle, hops]
    rfl
  simp only [clockCycle, State.onceStarted, hrun]

/-- Settles O38: the stages of the cycle, and the answers of a request to the state the others leave. -/
theorem cycleOrder : Obligations.CycleOrder := fun p s hs hstart hplw => by
  obtain ⟨hopen, hmsg⟩ := State.openCycle_of_no_write (s := s) hplw
  refine ⟨fun hrst => if_pos hrst, fun _ => clockCycle_of_byte s, fun hrst hreq => ?_,
    fun ⟨htx, htrn⟩ => by simp [State.txEnabled_of_trnEnabled htrn] at htx, fun hrst hreq => ?_⟩
  · rw [clockCycle_of_no_request hstart hrst hreq, hopen, List.append_assoc]
    rfl
  · obtain ⟨u, hu, -⟩ := performAll_answers hs hstart (cycleOps_wf _ p s)
    obtain ⟨hcmd, hstart'⟩ := performAll_keeps_config hstart hu
    have hrest : clockCycle { p with sndReq := false } s = .next u := by
      obtain ⟨hopen', -⟩ := State.openCycle_of_no_write (p := { p with sndReq := false }) (s := s) hplw
      rw [clockCycle_of_no_request (p := { p with sndReq := false }) hstart hrst rfl, hopen']
      exact hu
    have hcycle : clockCycle p s = grantSend (s.portMessage p) u := by
      rw [clockCycle_of_request hstart hrst hreq (by rwa [hopen]), hmsg]
    obtain ⟨hset, hfreed⟩ := clockCycle_lock (p := { p with sndReq := false }) hrst rfl hrest
    rw [hcycle, ← hcmd]
    refine ⟨u, hrest, grantSend_of_locked, fun m hlock hread hm => ?_,
      fun hlock hm => grantSend_of_illFormed hstart' hlock hm, hset, hfreed⟩
    rw [hread]
    exact ⟨_, grantSend_of_free hstart' hlock hm, rfl, rfl, exec_snd_of_free hstart' hlock hm⟩

end Sys2Proof.Machine
end

section
/-! PROOF. The frames that operations surface, whatever the state they begin in (spec R65), and the whole reception of a
frame (spec R106, R107). -/

namespace Sys2Proof.Machine

/-! ### The frames surfaced (R65) -/

/-- The frame an action surfaces to the Dispatcher (R65). -/
def Action.surfaced? : Action → Option (List Byte)
  | .rxdone F => some F
  | _ => none

/-- The frames that actions surface, in order. -/
def surfacedFrames (acts : List Action) : List (List Byte) := acts.filterMap Action.surfaced?

@[simp] theorem surfacedFrames_append (as bs : List Action) :
    surfacedFrames (as ++ bs) = surfacedFrames as ++ surfacedFrames bs :=
  List.filterMap_append

theorem Env.react_surfaced (e : Env) (a : Action) : (e.react a).surfaced = e.surfaced ++ surfacedFrames [a] := by
  cases a with
  | rxdone F => rfl
  | dir d => cases d <;> exact (List.append_nil _).symm
  | _ => exact (List.append_nil _).symm

/-- Beside the frames `S` from before, what is surfaced is what the actions report. -/
def State.SurfacesAfter (S : List (List Byte)) (s : State) : Prop := s.env.surfaced = S ++ surfacedFrames s.actions

theorem State.SurfacesAfter.emit {S : List (List Byte)} {s : State} (h : s.SurfacesAfter S) (a : Action) :
    (s.emit a).SurfacesAfter S := by
  rw [State.SurfacesAfter, State.emit_env, State.emit_actions, Env.react_surfaced, h, surfacedFrames_append,
    List.append_assoc]

theorem State.attempt_surfacesAfter (w : OutcomeWord) (s : State) : (s.attempt w).SurfacesAfter s.env.surfaced :=
  (List.append_nil _).symm

theorem State.SurfacesAfter.complete {S : List (List Byte)} {s : State} (h : s.SurfacesAfter S) :
    (complete s).SurfacesAfter S := by
  rw [complete_eq]
  exact h.emit (frameAction s.cmdBytes s.rxFrame)

theorem State.SurfacesAfter.rxbAdvance {S : List (List Byte)} {s : State} (h : s.SurfacesAfter S) :
    (rxbAdvance s).SurfacesAfter S := by
  obtain ⟨heq, -⟩ | ⟨heq, -⟩ | ⟨heq, -⟩ | ⟨heq, -⟩ := rxbAdvance_cases s <;> rw [heq]
  · exact State.SurfacesAfter.complete (s := s.setPayLen 0) h
  · exact h
  · exact h.complete
  · exact h

theorem State.SurfacesAfter.tmoFlush {S : List (List Byte)} {s : State} (h : s.SurfacesAfter S) :
    (tmoFlush s).SurfacesAfter S := by
  obtain ⟨-, heq⟩ | ⟨-, heq⟩ := tmoFlush_cases s <;> rw [heq]
  · exact h
  · exact h.emit (.flush s.blk.rxCnt)

theorem State.SurfacesAfter.tmoRelease {S : List (List Byte)} {s : State} (h : s.SurfacesAfter S) :
    (tmoRelease s).SurfacesAfter S := by
  obtain ⟨-, heq⟩ | ⟨-, heq⟩ | ⟨-, heq⟩ := tmoRelease_cases s <;> rw [heq]
  · exact h
  · exact h.emit .snddone
  · exact h

/-- An operation surfaces the frames its actions report, in every state (R65, R101). -/
theorem exec_surfaced {i : Instr} {s t : State} (h : exec i s = .next t) :
    t.env.surfaced = s.env.surfaced ++ surfacedFrames t.actions := by
  have hfresh (w : OutcomeWord) : (s.attempt w).SurfacesAfter s.env.surfaced := s.attempt_surfacesAfter w
  cases i with
  | rst =>
    obtain rfl := execRst_next.mp h
    exact ((hfresh _).emit .tcancel).emit (.dir .receive)
  | rxb b =>
    obtain ⟨-, -, rfl⟩ := execRxb_next.mp h
    have hmid : (rxbMid b s).SurfacesAfter s.env.surfaced := by
      rw [rxbMid_eq]
      exact (hfresh .performed).emit .tstart
    exact hmid.rxbAdvance
  | tmo =>
    obtain ⟨-, rfl⟩ := execTmo_next.mp h
    split
    · have hfired : (s.attempt .performed).timerFired.SurfacesAfter s.env.surfaced := hfresh _
      exact hfired.tmoFlush.tmoRelease
    · exact hfresh _
  | snd m =>
    obtain ⟨-, -, rfl⟩ := execSnd_next.mp h
    split
    · exact hfresh _
    · exact (hfresh .performed).emit (.dir .transmit)
  | txb =>
    obtain ⟨-, ht⟩ := execTxb_next.mp h
    split at ht
    · obtain ⟨-, rfl⟩ := ht
      exact (hfresh .performed).emit (.tx s.txByte)
    · obtain rfl := ht
      exact hfresh _
  | trn =>
    obtain ⟨-, rfl⟩ := execTrn_next.mp h
    split
    · exact ((hfresh .performed).emit (.dir .receive)).emit .tstart
    · exact hfresh _

theorem performAll_surfaced {ops : List Instr} {s t : State} (h : performAll ops s = .next t) :
    t.env.surfaced = s.env.surfaced ++ surfacedFrames t.actions := by
  induction ops generalizing s t with
  | nil =>
    obtain rfl := performAll_nil.mp h
    exact (List.append_nil _).symm
  | cons i is ih =>
    obtain ⟨u, v, hu, hv, rfl⟩ := performAll_cons.mp h
    rw [State.reportsAfter_env, State.reportsAfter_actions, ih hv, exec_surfaced hu, surfacedFrames_append,
      List.append_assoc]

/-! ### The receiver (R106, R107) -/

/-- Received bytes leave the phase of the send alone (R164). -/
theorem performAll_rxbs_txState {bytes : List Byte} {s t : State} (h : performAll (bytes.map .rxb) s = .next t) :
    t.blk.txState = s.blk.txState := by
  induction bytes generalizing s t with
  | nil =>
    obtain rfl := performAll_nil.mp h
    rfl
  | cons b bytes ih =>
    obtain ⟨u, v, hu, hv, rfl⟩ := performAll_cons.mp h
    obtain ⟨_, _, _, _, _, _, -, rfl⟩ := execRxb_frame hu
    exact (ih hv :)

/-- Outside Sending `TMO` leaves nothing in progress: the lock it does not free was free (R40, R103). -/
theorem execTmo_quiescent {s t : State} (hs : s.Inv) (hts : s.blk.txState ≠ .sending) (h : execTmo s = .next t) :
    t.Quiescent := by
  refine State.quiescent_of_lock_free (exec_inv (i := .tmo) hs h) ?_
  obtain ⟨-, -, -, hlock, -⟩ | ⟨hword, hlock, -⟩ := execTmo_lock_phase h
  · exact hlock
  · have hidle : s.blk.timerArmed ≠ true := fun harm => hts (hword (execTmo_of_armed harm h).1)
    obtain ⟨-, -, -, hrel, -⟩ := hs
    rw [hlock]
    exact Bool.eq_false_of_not_eq_true fun hset => (hrel hset).elim hidle hts

/-- A Quiescent node that receives a frame, and then nothing until its timer fires, surfaces that frame. -/
theorem performAll_whole_reception {s : State} {m : Message} (hq : s.Quiescent) (hstart : s.started = true)
    (hm : m.wf s.cmdBytes = true) :
    ∃ t, performAll ((serialize s.cmdBytes m).map .rxb ++ [.tmo]) s = .next t ∧ t.Quiescent
      ∧ t.env.surfaced = s.env.surfaced ++ [serialize s.cmdBytes m] := by
  obtain ⟨s₀, hs₀, ⟨-, hcnt, -, -, -, hts, -⟩, hstart₀, hcmd₀, hlike⟩ := hq.exists_runsLike
  rw [← hstart₀] at hstart
  rw [← hcmd₀] at hm ⊢
  have hF := wholeFrame_serialize hm
  have hnil : s₀.rxFrame = [] := State.rxFrame_eq_nil.mpr hcnt
  have hwf : ∀ i ∈ (serialize s₀.cmdBytes m).map Instr.rxb ++ [.tmo], i.wf s₀.cmdBytes = true := by
    intro i hi
    cases i with
    | snd m => simp at hi
    | _ => rfl
  obtain ⟨t, ht, -⟩ := performAll_answers hs₀ hstart hwf
  obtain ⟨t', ht', hlike'⟩ := performAll_runsLike hlike ht
  obtain ⟨u, v, hu, hv, rfl⟩ := performAll_append.mp ht
  have hinv := performAll_inv hs₀ hu
  rw [performAll_singleton] at hv
  have hts' : u.blk.txState = .txIdle := (performAll_rxbs_txState hu).trans hts
  have hfeed := performAll_feeds hs₀ (by simp) hu (timeoutsIgnored_map_rxb _ _) hF (hnil ▸ hF.ne_nil.symm)
  rw [hnil, rxOperands_map_rxb, List.nil_append, if_pos rfl] at hfeed
  obtain ⟨-, hrx⟩ := hfeed List.prefix_rfl
  have hfa : u.blk.faState = .idle := (hinv.assembler_of_rxCnt.1 (State.rxFrame_eq_nil.mp hrx)).1
  have hqv : v.Quiescent := execTmo_quiescent hinv (by simp [hts']) hv
  refine ⟨t', ht', hlike'.quiescent hqv, ?_⟩
  rw [performAll_surfaced ht', hlike'.reports.1, State.reportsAfter_actions,
    performAll_rxbs_frame hs₀ hstart hnil hu hF, execTmo_actions hv, frameAction_serialize hm]
  simp [timeoutActions, hfa, hts', surfacedFrames, Action.surfaced?]

end Sys2Proof.Machine
end

section
/-! PROOF. A whole frame from one node to another (spec R126, R171, R183): the bus runs each node's own sequence of
operations, the sender's send and the receiver's bytes. -/

namespace Sys2Proof.Machine

/-! ### Two nodes on one line (R171) -/

/-- Two nodes without loopback; the second has yet to hear the bytes `line`. -/
def Bus.pair (x y : State) (line : List Byte) : Bus := [⟨x, false, []⟩, ⟨y, false, line⟩]

/-- What a node that can perform an operation does to the bus. -/
theorem Bus.act_eq_some {bus : Bus} {k : Nat} {i : Instr} {n n' : Node} {t : State} (hk : bus[k]? = some n)
    (hdel : n.deliver i = some n') (h : exec i n.state = .next t) :
    bus.act k i = some ((bus.set k { n' with state := t }).mapIdx fun j => Node.hear k j (lineBytes t.actions)) := by
  rw [← Node.deliver_state hdel] at h
  simp only [Bus.act, hk, hdel, h]
  rfl

/-- The second node hears what the first puts on the line. -/
theorem Bus.pair_act_first {i : Instr} {x t : State} (hrxb : ∀ b, i ≠ .rxb b) (h : exec i x = .next t) (y : State)
    (line : List Byte) :
    (Bus.pair x y line).act 0 i = some (Bus.pair t y (line ++ lineBytes t.actions)) := by
  have hdel : (⟨x, false, []⟩ : Node).deliver i = some ⟨x, false, []⟩ := by
    cases i with
    | rxb b => exact absurd rfl (hrxb b)
    | _ => rfl
  exact Bus.act_eq_some (bus := Bus.pair x y line) rfl hdel h

/-- An operation but `TXB` of the first node leaves the line alone. -/
theorem Bus.pair_act_first_silent {i : Instr} {x t : State} (hrxb : ∀ b, i ≠ .rxb b) (htxb : i ≠ .txb)
    (h : exec i x = .next t) (y : State) (line : List Byte) :
    (Bus.pair x y line).act 0 i = some (Bus.pair t y line) := by
  have hact := Bus.pair_act_first hrxb h y line
  rwa [exec_lineBytes h, if_neg fun hc => htxb hc.1, List.append_nil] at hact

/-- The second node takes the next byte of the line, and puts none there. -/
theorem Bus.pair_act_second_rxb {b : Byte} {y t : State} (h : exec (.rxb b) y = .next t) (x : State)
    (line : List Byte) :
    (Bus.pair x y (b :: line)).act 1 (.rxb b) = some (Bus.pair x t line) := by
  have hdel : (⟨y, false, b :: line⟩ : Node).deliver (.rxb b) = some ⟨y, false, line⟩ := if_pos rfl
  have hact := Bus.act_eq_some (bus := Bus.pair x y (b :: line)) (k := 1) rfl hdel h
  rw [exec_lineBytes h] at hact
  exact hact

theorem Bus.pair_act_second_tmo {y t : State} (h : exec .tmo y = .next t) (x : State) :
    (Bus.pair x y []).act 1 .tmo = some (Bus.pair x t []) := by
  have hact := Bus.act_eq_some (bus := Bus.pair x y []) (k := 1) rfl rfl h
  rw [exec_lineBytes h] at hact
  exact hact

theorem Bus.run_cons {op : Nat × Instr} {ops : List (Nat × Instr)} {bus bus' : Bus}
    (h : bus.act op.1 op.2 = some bus') :
    Bus.run (op :: ops) bus = Bus.run ops bus' := by
  simp only [Bus.run, h]

theorem Bus.run_append {ops ops' : List (Nat × Instr)} {bus bus' : Bus} (h : Bus.run ops bus = some bus') :
    Bus.run (ops ++ ops') bus = Bus.run ops' bus' := by
  induction ops generalizing bus with
  | nil =>
    obtain rfl := Option.some.inj h
    rfl
  | cons op ops ih =>
    cases hact : bus.act op.1 op.2 with
    | none => simp [Bus.run, hact] at h
    | some bus'' =>
      rw [Bus.run_cons hact] at h
      rw [List.cons_append, Bus.run_cons hact, ih h]

/-! ### The frame on the line (R126, R183) -/

/-- Two states that differ at most in what the last step reported. -/
def State.SameButReports (s t : State) : Prop := ∃ as ws, s = { t with actions := as, outcomes := ws }

theorem State.SameButReports.exec_eq {s t : State} (h : s.SameButReports t) (i : Instr) : exec i s = exec i t := by
  obtain ⟨as, ws, rfl⟩ := h
  exact exec_forgets_reports i t as ws

/-- Each byte that the first node hands over is the next that the second receives. -/
theorem Bus.run_bytes {L : List Byte} {x y u v : State} (hrest : x.SendsRest L)
    (hx : performAll (List.replicate L.length .txb) x = .next u) (hy : performAll (L.map .rxb) y = .next v) :
    ∃ x' y', x'.SameButReports u ∧ y'.SameButReports v
      ∧ Bus.run (L.flatMap fun b => [(0, .txb), (1, .rxb b)]) (Bus.pair x y []) = some (Bus.pair x' y' []) := by
  induction L generalizing x y u v with
  | nil =>
    obtain rfl := performAll_nil.mp hx
    obtain rfl := performAll_nil.mp hy
    exact ⟨x, y, ⟨_, _, rfl⟩, ⟨_, _, rfl⟩, rfl⟩
  | cons b L ih =>
    obtain ⟨x₁, u₁, hx₁, hu₁, rfl⟩ := performAll_cons.mp hx
    obtain ⟨y₁, v₁, hy₁, hv₁, rfl⟩ := performAll_cons.mp hy
    obtain ⟨hact, hrest₁, -⟩ := exec_txb_sendsRest hrest hx₁
    obtain ⟨x', y', ⟨as, ws, rfl⟩, ⟨as', ws', rfl⟩, hrun⟩ := ih hrest₁ hu₁ hv₁
    have hsent := Bus.pair_act_first (by simp) hx₁ y []
    rw [hact] at hsent
    refine ⟨_, _, ⟨as, ws, rfl⟩, ⟨as', ws', rfl⟩, ?_⟩
    rw [List.flatMap_cons, List.cons_append, List.singleton_append, Bus.run_cons hsent,
      Bus.run_cons (Bus.pair_act_second_rxb hy₁ x₁ [])]
    exact hrun

/-- Settles O54: the whole send of the one node and the whole reception of the other, byte after byte. -/
theorem frameCrossesTheBus : Obligations.FrameCrossesTheBus := fun x y m hqx hqy hstartx hstarty hcmd hm => by
  obtain ⟨t, ht, hqt, -⟩ := (wholeLocalSend x m hqx hstartx hm).1
  obtain ⟨z, hz, hqz, hsurfaced⟩ := performAll_whole_reception (m := m) hqy hstarty (hcmd ▸ hm)
  rw [← hcmd] at hz hsurfaced
  obtain ⟨-, -, -, hlock, -⟩ := hqx
  obtain ⟨x₁, _, hx₁, hrest, rfl⟩ := performAll_cons.mp ht
  obtain ⟨x₂, _, hx₂, hturn, rfl⟩ := performAll_append.mp hrest
  obtain ⟨x₃, x₄, hx₃, hx₄, rfl⟩ := performAll_cons.mp hturn
  obtain ⟨y₁, y₂, hy₁, hy₂, rfl⟩ := performAll_append.mp hz
  rw [performAll_singleton] at hx₄ hy₂
  have hsends : x₁.SendsRest (serialize x.cmdBytes m) := by
    obtain rfl := exec_snd_begins hlock hx₁
    exact sndBegin_sendsRest (s := x.attempt .performed) hm
  obtain ⟨x', y', hx', hy', hrun⟩ := Bus.run_bytes hsends hx₂ hy₁
  rw [← hx'.exec_eq] at hx₃
  rw [← hy'.exec_eq] at hy₂
  refine ⟨x₄, y₂, ?_, hqt, hqz, hsurfaced⟩
  change Bus.run _ (Bus.pair x y []) = _
  rw [Bus.run_cons (Bus.pair_act_first_silent (by simp) (by simp) hx₁ y []), Bus.run_append hrun,
    Bus.run_cons (Bus.pair_act_first_silent (by simp) (by simp) hx₃ y' []),
    Bus.run_cons (Bus.pair_act_first_silent (by simp) (by simp) hx₄ y' []),
    Bus.run_cons (Bus.pair_act_second_tmo hy₂ x₄)]
  rfl

end Sys2Proof.Machine
end

section
/-! PROOF. What is due of a held lock (spec R40, R196): the bytes left, the turnaround, the timeout, one after another.
Each is performed when it comes, and brings the release nearer; once the line is silent nothing puts it off. -/

namespace Sys2Proof.Machine

/-! ### The operations still due (R196) -/

/-- What is due before the lock is free: the operations of R196 while it is held, and nothing after. -/
def State.stillDue (s : State) : List Instr := if s.blk.txLock then s.drainOps else []

theorem State.stillDue_of_free {s : State} (hlock : s.blk.txLock = false) : s.stillDue = [] := by
  simp [State.stillDue, hlock]

theorem State.stillDue_of_locked {s : State} (hlock : s.blk.txLock = true) : s.stillDue = s.drainOps := if_pos hlock

theorem State.drainOps_of_sending {s : State} (hts : s.blk.txState = .sending) :
    s.drainOps = List.replicate (s.blk.txLen.toNat - s.blk.txIdx.toNat) .txb ++ [.trn, .tmo] := by
  simp [State.drainOps, hts]

theorem State.drainOps_of_not_sending {s : State} (hts : s.blk.txState ≠ .sending) : s.drainOps = [.tmo] := by
  unfold State.drainOps
  cases hphase : s.blk.txState with
  | sending => exact absurd hphase hts
  | _ => rfl

/-- No send is among the operations due. -/
theorem State.drainOps_wf (c : CmdBytes) (s : State) : ∀ i ∈ s.drainOps, i.wf c = true := by
  intro i hi
  cases i with
  | snd m => unfold State.drainOps at hi; split at hi <;> simp at hi
  | _ => rfl

/-- The lock and the transmitting side tell what is due. -/
theorem State.stillDue_congr {s t : State} (hlock : t.blk.txLock = s.blk.txLock) (hv : t.txView = s.txView) :
    t.stillDue = s.stillDue := by
  simp only [State.txView, Prod.mk.injEq] at hv
  obtain ⟨-, -, -, hts, -, hlen, hidx, -⟩ := hv
  simp only [State.stillDue, State.drainOps, hlock, hts, hlen, hidx]

/-- The first operation due is enabled, and what is due after it is the rest (R39, R40). -/
theorem State.Inv.due_cases {s : State} {i : Instr} {is : List Instr} (hs : s.Inv) (hdue : s.stillDue = i :: is) :
    s.blk.txLock = true
    ∧ ((i = .txb ∧ s.txEnabled = true
          ∧ is = List.replicate (s.blk.txLen.toNat - (s.blk.txIdx.toNat + 1)) .txb ++ [.trn, .tmo])
      ∨ (i = .trn ∧ s.trnEnabled = true ∧ is = [.tmo])
      ∨ (i = .tmo ∧ s.blk.timerArmed = true ∧ s.blk.txState ≠ .sending ∧ is = [])) := by
  obtain ⟨-, hlock, -⟩ | ⟨-, hlock, hts, harm⟩ | ⟨-, hlock, hts, hen⟩ | ⟨-, hlock, hts, hen⟩ | ⟨-, hlock, hts, harm⟩ :=
    hs.classOf_cases
  · simp [State.stillDue_of_free hlock] at hdue
  · rw [State.stillDue_of_locked hlock, State.drainOps_of_not_sending (by simp [hts])] at hdue
    obtain ⟨rfl, rfl⟩ := List.cons.inj hdue
    simp [hlock, hts, harm]
  · obtain ⟨-, hlt⟩ := State.txEnabled_iff.mp hen
    have hleft : s.blk.txLen.toNat - s.blk.txIdx.toNat = s.blk.txLen.toNat - (s.blk.txIdx.toNat + 1) + 1 := by omega
    rw [State.stillDue_of_locked hlock, State.drainOps_of_sending hts, hleft, List.replicate_succ,
      List.cons_append] at hdue
    obtain ⟨rfl, rfl⟩ := List.cons.inj hdue
    simp [hlock, hen]
  · obtain ⟨-, hall⟩ := State.trnEnabled_iff.mp hen
    rw [State.stillDue_of_locked hlock, State.drainOps_of_sending hts, hall, Nat.sub_self] at hdue
    obtain ⟨rfl, rfl⟩ := List.cons.inj hdue
    simp [hlock, hen]
  · rw [State.stillDue_of_locked hlock, State.drainOps_of_not_sending (by simp [hts])] at hdue
    obtain ⟨rfl, rfl⟩ := List.cons.inj hdue
    simp [hlock, hts, harm]

/-- While an operation is due its collaborator can perform it (R166, R167, R123). -/
theorem State.Inv.due_enabled {s : State} {i : Instr} {is : List Instr} (hs : s.Inv) (hdue : s.stillDue = i :: is) :
    (i = .txb → s.txEnabled = true) ∧ (i = .trn → s.trnEnabled = true) ∧ (i = .tmo → s.env.timerRunning = true) := by
  obtain ⟨-, -, hflag⟩ := State.inv_iff.mp hs
  obtain ⟨-, ⟨rfl, hen, -⟩ | ⟨rfl, hen, -⟩ | ⟨rfl, harm, -⟩⟩ := hs.due_cases hdue
  · simp [hen]
  · simp [hen]
  · simp [hflag.timer, harm]

/-- With nothing due the lock is free, and the state Quiescent (R40). -/
theorem State.Inv.quiescent_of_nothing_due {s : State} (hs : s.Inv) (hdue : s.stillDue = []) : s.Quiescent := by
  refine State.quiescent_of_lock_free hs (Bool.eq_false_of_not_eq_true fun hlock => ?_)
  simp [State.stillDue_of_locked hlock, State.drainOps] at hdue

/-! ### What an operation does to them -/

/-- The operation due is performed, and leaves the rest due. -/
theorem exec_due {i : Instr} {is : List Instr} {s t : State} (hs : s.Inv) (hdue : s.stillDue = i :: is)
    (h : exec i s = .next t) : t.outcomes = [.performed] ∧ t.stillDue = is := by
  obtain ⟨hlock, ⟨rfl, hen, rfl⟩ | ⟨rfl, hen, rfl⟩ | ⟨rfl, harm, hts, rfl⟩⟩ := hs.due_cases hdue
  · have hsucc := txIdx_succ hen
    obtain rfl := exec_txb_of_enabled hen h
    obtain ⟨hts, -⟩ := State.txEnabled_iff.mp hen
    rw [State.stillDue_of_locked (by simpa using hlock), State.drainOps_of_sending (by simpa using hts), ← hsucc]
    exact ⟨rfl, rfl⟩
  · obtain rfl := next_eq_next.mp ((exec_trn_of_enabled (execTrn_next.mp h).1 hen).symm.trans h)
    exact ⟨rfl, State.stillDue_of_locked hlock⟩
  · obtain ⟨-, -, -, hfree, -⟩ := execTmo_quiescent hs hts h
    exact ⟨(execTmo_of_armed harm h).1, State.stillDue_of_free hfree⟩

theorem setsTimer_iff {acts : List Action} : setsTimer acts = true ↔ .tstart ∈ acts ∨ .tcancel ∈ acts := by
  simp [setsTimer]

/-- A `TMO` while Sending leaves what is due, and the timer, as they are (R103, D10). -/
theorem execTmo_keeps_due {s t : State} (hts : s.blk.txState = .sending) (h : execTmo s = .next t) :
    t.stillDue = s.stillDue ∧ setsTimer t.actions = false := by
  have hact := execTmo_actions h
  constructor
  · obtain ⟨-, hnot, -⟩ | ⟨-, hlock, -⟩ := execTmo_lock_phase h
    · exact absurd hts hnot
    · exact State.stillDue_congr hlock
        (execTmo_txView h (by simp [hts]) (by simp [hact, mem_timeoutActions, hts]))
  · simp [← Bool.not_eq_true, setsTimer_iff, hact, mem_timeoutActions]

/-- An operation other than the one due and than `RXB` frees the lock, or leaves what is due and the timer as they are. -/
theorem exec_not_due {i j : Instr} {is : List Instr} {s t : State} (hs : s.Inv) (hdue : s.stillDue = i :: is)
    (hne : j ≠ i) (hrxb : ∀ b, j ≠ .rxb b) (h : exec j s = .next t) :
    t.stillDue = [] ∨ (t.stillDue = i :: is ∧ setsTimer t.actions = false) := by
  rw [← hdue]
  obtain ⟨hlock, hcases⟩ := hs.due_cases hdue
  have hunperformed (w : OutcomeWord) (ht : t = s.attempt w) :
      t.stillDue = s.stillDue ∧ setsTimer t.actions = false := ht ▸ ⟨rfl, rfl⟩
  cases j with
  | rst =>
    obtain rfl := execRst_next.mp h
    exact .inl rfl
  | rxb b => exact absurd rfl (hrxb b)
  | tmo =>
    have hts : s.blk.txState = .sending := by
      obtain ⟨-, hen, -⟩ | ⟨-, hen, -⟩ | ⟨hi, -⟩ := hcases
      · exact (State.txEnabled_iff.mp hen).1
      · exact (State.trnEnabled_iff.mp hen).1
      · exact absurd hi.symm hne
    exact .inr (execTmo_keeps_due hts h)
  | snd m =>
    obtain ⟨-, -, ht⟩ := execSnd_next.mp h
    exact .inr (hunperformed _ (ht.trans (if_pos hlock)))
  | txb =>
    have hen : s.txEnabled = false := by
      obtain ⟨hi, -⟩ | ⟨-, hen, -⟩ | ⟨-, -, hts, -⟩ := hcases
      · exact absurd hi.symm hne
      · exact State.txEnabled_of_trnEnabled hen
      · simp [State.txEnabled, hts]
    have ht := (exec_txb_of_not_enabled (execTxb_next.mp h).1 hen).symm.trans h
    exact .inr (hunperformed _ (next_eq_next.mp ht))
  | trn =>
    have hen : s.trnEnabled = false := by
      obtain ⟨-, hen, -⟩ | ⟨hi, -⟩ | ⟨-, -, hts, -⟩ := hcases
      · exact Bool.eq_false_of_not_eq_true fun hdue => by simp [State.txEnabled_of_trnEnabled hdue] at hen
      · exact absurd hi.symm hne
      · simp [State.trnEnabled, hts]
    have ht := (exec_trn_of_not_enabled (execTrn_next.mp h).1 hen).symm.trans h
    exact .inr (hunperformed _ (next_eq_next.mp ht))

/-! ### The bounded sequence -/

theorem performAll_stillDue {ops : List Instr} {s t : State} (hs : s.Inv) (hdue : s.stillDue = ops)
    (h : performAll ops s = .next t) : t.stillDue = [] ∧ ∀ w ∈ t.outcomes, w = .performed := by
  induction ops generalizing s t with
  | nil =>
    obtain rfl := performAll_nil.mp h
    exact ⟨hdue, by simp⟩
  | cons i is ih =>
    obtain ⟨u, v, hu, hv, rfl⟩ := performAll_cons.mp h
    obtain ⟨hword, hdue'⟩ := exec_due hs hdue hu
    obtain ⟨hnone, hwords⟩ := ih (exec_inv hs hu) hdue' hv
    exact ⟨hnone, by simpa [hword] using hwords⟩

/-- Settles O48: what is due runs to its end, and then nothing is due. -/
theorem silentLineDrains : Obligations.SilentLineDrains := fun s hs hstart hlock => by
  obtain ⟨t, ht, -⟩ := performAll_answers hs hstart (State.drainOps_wf _ s)
  obtain ⟨hnone, hwords⟩ := performAll_stillDue hs (State.stillDue_of_locked hlock) ht
  exact ⟨t, ht, (performAll_inv hs ht).quiescent_of_nothing_due hnone, hwords⟩

end Sys2Proof.Machine
end

section
/-! PROOF. Infinite runs on a line that has fallen silent (spec R145, R195, R196): fairness brings each operation due, so
that the lock is freed again and again. -/

namespace Sys2Proof.Machine

section
variable {ops : Nat → Instr} {st : Nat → State} {N n k : Nat}

/-- A run from a state that meets the invariant, under F1 to F3, with the line silent from `N` on (R195, R196). -/
structure SilentRun (ops : Nat → Instr) (st : Nat → State) (N : Nat) : Prop where
  inv : ∀ n, (st n).Inv
  run : IsRun ops st
  timer : TimerFair ops st
  sink : SinkFair ops st
  turn : TurnFair ops st
  silent : ∀ n, N ≤ n → ∀ b, ops n ≠ .rxb b

theorem IsRun.inv (hrun : IsRun ops st) (h0 : (st 0).Inv) (n : Nat) : (st n).Inv := by
  induction n with
  | zero => exact h0
  | succ n ih => exact exec_inv ih (hrun n)

/-- An operation that stays due, the timer not being set meanwhile, eventually occurs (R195). -/
theorem SilentRun.due_occurs {i : Instr} {is : List Instr} (h : SilentRun ops st N)
    (hdue : ∀ m, n ≤ m → (st m).stillDue = i :: is) (hunset : ∀ m, n ≤ m → setsTimer (st (m + 1)).actions = false) :
    ∃ m, n ≤ m ∧ ops m = i := by
  have henabled (m : Nat) (hm : n ≤ m) := (h.inv m).due_enabled (hdue m hm)
  obtain ⟨-, ⟨rfl, -⟩ | ⟨rfl, -⟩ | ⟨rfl, -⟩⟩ := (h.inv n).due_cases (hdue n le_rfl)
  · exact h.sink n fun m hm => (henabled m hm).1 rfl
  · exact h.turn n fun m hm => (henabled m hm).2.1 rfl
  · obtain ⟨m, hm, hfires | hset⟩ := h.timer n ((henabled n le_rfl).2.2 rfl)
    · exact ⟨m, hm, hfires⟩
    · simp [hunset m hm] at hset

/-- Once the line is silent the release comes nearer: the first operation due is done, or the lock is free. -/
theorem SilentRun.due_decreases {i : Instr} {is : List Instr} (h : SilentRun ops st N) (hn : N ≤ n)
    (hdue : (st n).stillDue = i :: is) : ∃ m, n ≤ m ∧ ((st m).stillDue = [] ∨ (st m).stillDue = is) := by
  by_contra hnever
  have hstays : ∀ m, n ≤ m → (st m).stillDue ≠ [] ∧ (st m).stillDue ≠ is := fun m hm =>
    not_or.mp fun hless => hnever ⟨m, hm, hless⟩
  have hstep : ∀ m, n ≤ m → (st m).stillDue = i :: is →
      ops m ≠ i ∧ (st (m + 1)).stillDue = i :: is ∧ setsTimer (st (m + 1)).actions = false := fun m hm hm' => by
    obtain ⟨hsome, hmore⟩ := hstays (m + 1) (hm.trans m.le_succ)
    have hother : ops m ≠ i := fun hi => hmore (exec_due (h.inv m) hm' (hi ▸ h.run m)).2
    exact ⟨hother,
      (exec_not_due (h.inv m) hm' hother (h.silent m (hn.trans hm)) (h.run m)).resolve_left hsome⟩
  have hsame : ∀ m, n ≤ m → (st m).stillDue = i :: is :=
    Nat.le_induction hdue fun m hm ih => (hstep m hm ih).2.1
  obtain ⟨m, hm, hi⟩ := h.due_occurs hsame fun m hm => (hstep m hm (hsame m hm)).2.2
  exact (hstep m hm (hsame m hm)).1 hi

theorem SilentRun.comes_to_rest {due : List Instr} (h : SilentRun ops st N) (hn : N ≤ n) (hdue : (st n).stillDue = due) :
    ∃ m, n ≤ m ∧ (st m).Quiescent := by
  induction due generalizing n with
  | nil => exact ⟨n, le_rfl, (h.inv n).quiescent_of_nothing_due hdue⟩
  | cons i is ih =>
    obtain ⟨m, hm, hnone | hrest⟩ := h.due_decreases hn hdue
    · exact ⟨m, hm, (h.inv m).quiescent_of_nothing_due hnone⟩
    · obtain ⟨p, hp, hq⟩ := ih (hn.trans hm) hrest
      exact ⟨p, hm.trans hp, hq⟩

/-- From every point of the run on, and after the line has fallen silent, a Quiescent state is reached. -/
theorem SilentRun.quiescent_later (h : SilentRun ops st N) (n : Nat) : ∃ m, N ≤ m ∧ n ≤ m ∧ (st m).Quiescent := by
  obtain ⟨m, hm, hq⟩ := h.comes_to_rest (le_max_left N n) rfl
  exact ⟨m, (le_max_left N n).trans hm, (le_max_right N n).trans hm, hq⟩

end

/-- Settles O49: what is due grows less until nothing is. -/
theorem silentLineFreesTheLock : Obligations.SilentLineFreesTheLock :=
  fun _ _ h0 _ hrun htimer hsink hturn ⟨_, hsilent⟩ n =>
    let ⟨m, _, hm, hq⟩ := SilentRun.quiescent_later ⟨hrun.inv h0, hrun, htimer, hsink, hturn, hsilent⟩ n
    ⟨m, hm, hq⟩

/-! ### The requested sends (R121, R140, R173) -/

section
variable {ops : Nat → Instr} {st : Nat → State} {N n k : Nat} {m : Message}

/-- With the lock free, the one way to set it on a silent line is the send that waits (R120, R173). -/
theorem SilentRun.lock_stays_free {wants : Nat → Option Message} (h : SilentRun ops st N)
    (hreq : HostRequests ops st wants) (hk : N ≤ k) (hfree : (st k).blk.txLock = false) (hwant : wants k = some m)
    (hnot : ¬ SendsAt ops st k m) : (st (k + 1)).blk.txLock = false := by
  refine Bool.eq_false_of_not_eq_true fun hlock => ?_
  obtain ⟨hset, -⟩ := lockWrites _ _ _ (h.run k)
  obtain ⟨b, hb⟩ | ⟨m', hsnd, hword⟩ := (hset hfree).mp hlock
  · exact h.silent k hk b hb
  · obtain rfl : m = m' := Option.some.inj (hwant.symm.trans (hreq.2 k m' hsnd))
    exact hnot ⟨hsnd, hword⟩

/-- Under F4 a requested send is performed: a patient Host finds the lock free for good otherwise. -/
theorem SilentRun.request_performed {wants : Nat → Option Message} (h : SilentRun ops st N)
    (hreq : HostRequests ops st wants) (hhost : HostFair ops st wants) (hwant : wants n = some m) :
    ∃ k, n ≤ k ∧ SendsAt ops st k m := by
  by_contra hnever
  have hnot : ∀ k, n ≤ k → ¬ SendsAt ops st k m := fun k hk hsend => hnever ⟨k, hk, hsend⟩
  obtain ⟨hkeeps, hasks⟩ := hhost
  have hwaits : ∀ k, n ≤ k → wants k = some m :=
    Nat.le_induction hwant fun k hk ih => (hkeeps k m ih).resolve_left (hnot k hk)
  obtain ⟨p, hNp, hnp, -, -, -, hlock, -⟩ := h.quiescent_later n
  have hfree : ∀ k, p ≤ k → (st k).blk.txLock = false :=
    Nat.le_induction hlock fun k hk ih =>
      h.lock_stays_free hreq (hNp.trans hk) ih (hwaits k (hnp.trans hk)) (hnot k (hnp.trans hk))
  obtain ⟨k, hk, hsnd⟩ := hasks p m fun k hk => ⟨hwaits k (hnp.trans hk), hfree k hk⟩
  have hbegins := exec_snd_begins (hfree k hk) (hsnd ▸ h.run k)
  exact hnot k (hnp.trans hk) ⟨hsnd, by rw [hbegins]; rfl⟩

/-- `SNDDONE` is emitted by `TMO` alone (R103). -/
theorem snddone_mem_operationActions {i : Instr} {s : State} (h : .snddone ∈ operationActions i s) : i = .tmo := by
  cases i with
  | tmo => rfl
  | rxb b => simp [operationActions, mem_byteActions (a := .snddone) rfl] at h
  | rst => simp [operationActions] at h
  | _ => rw [operationActions] at h; split at h <;> simp at h

/-- The `j`-th operation ends the send under way, if there is one: it emits SNDDONE, or is `RST` (R103, R140). -/
def EndsSend (ops : Nat → Instr) (st : Nat → State) (j : Nat) : Prop :=
  ops j = .rst ∨ .snddone ∈ (st (j + 1)).actions

/-- Until an operation ends it, a send goes on (R121, R127). -/
theorem SilentRun.send_goes_on {j : Nat} (h : SilentRun ops st N) (hsend : SendsAt ops st k m) (hj : k < j)
    (hno : ∀ i, k < i → i < j → ¬ EndsSend ops st i) : (st j).blk.txState ≠ .txIdle := by
  induction j, hj using Nat.le_induction with
  | base =>
    obtain ⟨hsnd, hword⟩ := hsend
    have hrun := hsnd ▸ h.run k
    obtain ⟨-, -, -, hlock, -⟩ := sendBeginsOnlyWhenQuiescent _ _ m (h.inv k) hrun hword
    rw [exec_snd_begins hlock hrun]
    simp [sndBegin]
  | succ j hj ih =>
    obtain ⟨hrst, hdone⟩ := not_or.mp (hno j hj j.lt_succ_self)
    have hbusy := ih fun i hi hij => hno i hi (hij.trans j.lt_succ_self)
    exact (exec_sendGoesOn (h.inv j) hbusy hrst (h.run j) hdone).1.busy

/-- Every send performed comes to its end, for a Quiescent state is reached (R195, R196). -/
theorem SilentRun.send_ends (h : SilentRun ops st N) (hsend : SendsAt ops st k m) : ∃ j, SendEndsAt ops st k j := by
  classical
  have hends : ∃ j, k < j ∧ EndsSend ops st j := by
    by_contra hnever
    obtain ⟨p, -, hkp, -, -, -, -, -, hidle, -⟩ := h.quiescent_later (k + 1)
    exact h.send_goes_on hsend hkp (fun i hi _ hend => hnever ⟨i, hi, hend⟩) hidle
  obtain ⟨hj, hend⟩ := Nat.find_spec hends
  have hbefore : ∀ i, k < i → i < Nat.find hends → ¬ EndsSend ops st i := fun i hi hij hend =>
    Nat.find_min hends hij ⟨hi, hend⟩
  refine ⟨Nat.find hends, hj, ?_, fun i hi hij => ?_⟩
  · obtain hrst | hdone := hend
    · exact .inr hrst
    · exact .inl ⟨snddone_mem_operationActions (exec_actions (h.inv _) (h.run _) ▸ hdone), hdone⟩
  · obtain ⟨hrst, hdone⟩ := not_or.mp (hbefore i hi hij)
    have hbusy := h.send_goes_on hsend hi fun i' hi' hii' => hbefore i' hi' (hii'.trans hij)
    refine ⟨hrst, hdone, fun m' ⟨hsnd, hword⟩ => ?_⟩
    have hheld := (exec_sendGoesOn (h.inv i) hbusy hrst (h.run i) hdone).2 m' hsnd
    simp [hword] at hheld

end

/-- Settles O50: the request is performed at a free lock, and the send ends before the next. -/
theorem requestedSendsReachTheirEnd : Obligations.RequestedSendsReachTheirEnd :=
  fun ops st wants h0 _ hrun htimer hsink hturn hreq hhost ⟨N, hsilent⟩ n m hwant => by
    have h : SilentRun ops st N := ⟨hrun.inv h0, hrun, htimer, hsink, hturn, hsilent⟩
    obtain ⟨k, hk, hsend⟩ := h.request_performed hreq hhost hwant
    obtain ⟨j, hj⟩ := h.send_ends hsend
    exact ⟨k, j, hk, hsend, hj⟩

end Sys2Proof.Machine
end

section
/-! PROOF. Hazards in their bounds: nothing but `RST` before the first reset (spec R180, R181), a stray byte before a send
(R192), and a byte at the very deadline (R199). -/

namespace Sys2Proof.Machine

/-! ### Before the first RST (R180) -/

theorem exec_before_reset {i : Instr} {s : State} (hstart : s.started = false) (hrst : i ≠ .rst) :
    exec i s = .refused .beforeReset := by
  have hrefused (f : State → Outcome) : s.onceStarted f = .refused .beforeReset := by
    simp [State.onceStarted, hstart]
  cases i with
  | rst => exact absurd rfl hrst
  | rxb b => rw [exec, execRxb, hrefused]
  | tmo => rw [exec, execTmo, hrefused]
  | snd m => rw [exec, execSnd, hrefused]
  | txb => rw [exec, execTxb, hrefused]
  | trn => rw [exec, execTrn, hrefused]

/-- Settles O4: the flag alone decides, for operations and for cycles. -/
theorem onlyRstBeforeFirstReset : Obligations.OnlyRstBeforeFirstReset := fun s i p hstart => by
  refine ⟨exec_before_reset hstart, fun hrst => by simp [clockCycle, hrst, State.onceStarted, hstart], fun hrst => ?_⟩
  obtain ⟨t, -, hq, hstart', -, -, -, -, -, hcycle⟩ := rstReturnsToQuiescent s
  exact ⟨t, hcycle p hrst, hq, hstart'⟩

/-! ### A stray byte before a send (R192) -/

/-- The first byte of a frame never ends it, for a header has more than one (R70, R104). -/
theorem execRxb_first {s t : State} {b : Byte} (hs : s.Inv) (hcnt : s.blk.rxCnt = 0) (h : execRxb b s = .next t) :
    t.actions = [.tstart] ∧ t.blk.rxCnt = 1 ∧ t.rxFrame ≠ [] := by
  have hH : 7 ≤ s.headerSize := s.cmdBytes.headerSize_bounds.1
  have hnil := State.rxFrame_eq_nil.mpr hcnt
  have hgoes : ¬ s.FrameEnds b := fun hends => by
    have hlen := hends.1
    rw [hnil] at hlen
    simp at hlen
    omega
  obtain ⟨hends, -⟩ | ⟨-, hact, hrx⟩ := execRxb_feeds hs h
  · exact absurd hends hgoes
  · exact ⟨hact, by rw [execRxb_rxCnt hs h, if_neg hgoes, hcnt]; rfl, by simp [hrx]⟩

/-- A stray byte, a send that it holds, the timeout that flushes it, and the send again. -/
theorem performAll_stray_byte {s t : State} {b : Byte} {m : Message} (hs : s.Inv) (hq : s.Quiescent)
    (h : performAll [.rxb b, .snd m, .tmo, .snd m] s = .next t) :
    t.outcomes = [.performed, .held, .performed, .performed] ∧ t.actions = [.tstart, .flush 1, .dir .transmit]
      ∧ t.txFrame = serialize s.cmdBytes m := by
  obtain ⟨-, hcnt, -, -, -, hts, -⟩ := hq
  obtain ⟨u, _, hu, hsends, rfl⟩ := performAll_cons.mp h
  obtain ⟨v, _, hv, htimes, rfl⟩ := performAll_cons.mp hsends
  obtain ⟨w, x, hw, hx, rfl⟩ := performAll_cons.mp htimes
  rw [performAll_singleton] at hx
  have hinv := exec_inv hs hu
  have hinv' := exec_inv hinv hv
  obtain ⟨hword, hlock, harm, -⟩ := execRxb_flags hu
  obtain ⟨hact, hone, hne⟩ := execRxb_first hs hcnt hu
  have hts' : u.blk.txState = .txIdle := by
    obtain ⟨_, _, _, _, _, _, -, rfl⟩ := execRxb_frame hu
    exact hts
  obtain ⟨-, hm, -⟩ := execSnd_next.mp hx
  have hcmd : w.cmdBytes = s.cmdBytes :=
    (exec_keeps_config hw).1.trans ((exec_keeps_config hv).1.trans (exec_keeps_config hu).1)
  obtain ⟨-, -, rfl⟩ := execSnd_next.mp hv
  rw [if_pos hlock] at hw hinv' ⊢
  obtain ⟨hflush, -⟩ := execTmo_flushes hinv' hw hne hts'
  obtain ⟨hword', -⟩ := execTmo_of_armed harm hw
  obtain ⟨-, -, -, hfree, -⟩ := execTmo_quiescent hinv' (by simp [hts']) hw
  obtain rfl := exec_snd_begins hfree hx
  refine ⟨by simp [hword, hword', sndBegin], by simp [hact, hflush, hone, sndBegin], ?_⟩
  exact (sndBegin_txFrame (s := w.attempt .performed) hm).trans (congrArg (serialize · m) hcmd)

/-- States that run alike hold the same frame to be sent (R28). -/
theorem State.RunsLike.txFrame_eq {s t : State} (h : s.RunsLike t) : t.txFrame = s.txFrame := by
  obtain ⟨e, hsame⟩ := h
  obtain ⟨buf, txb, gen, rfl⟩ := hsame.exists_withContents
  obtain ⟨-, -, htxb⟩ := hsame
  exact (State.bytes_congr fun a _ ha => htxb a (Nat.zero_add s.blk.txLen.toNat ▸ ha)).symm

/-- Settles O51, from a state that meets the invariant and runs like the given one. -/
theorem strayByteCostsOneTimeout : Obligations.StrayByteCostsOneTimeout := fun s b m hq hstart hm => by
  obtain ⟨s₀, hs₀, hq₀, hstart₀, hcmd₀, hlike⟩ := hq.exists_runsLike
  rw [← hstart₀] at hstart
  rw [← hcmd₀] at hm ⊢
  obtain ⟨t, ht, -⟩ := performAll_answers (ops := [.rxb b, .snd m, .tmo, .snd m]) hs₀ hstart (by simp [Instr.wf, hm])
  obtain ⟨t', ht', hlike'⟩ := performAll_runsLike hlike ht
  obtain ⟨hwords, hact, hframe⟩ := performAll_stray_byte hs₀ hq₀ ht
  exact ⟨t', ht', hlike'.reports.2.trans hwords, hlike'.reports.1.trans hact, hlike'.txFrame_eq.trans hframe⟩

/-! ### The deadline (R199) -/

theorem Timed.mayOccur_of_deadline {t d : Nat} {i : Instr} {w : Timed} (hd : w.deadline = some d) :
    w.mayOccur t i = true ↔ w.now ≤ t ∧ t ≤ d ∧ (i = .tmo → t = d) := by
  simp [Timed.mayOccur, hd, imp_iff_not_or]

/-- What an operation that R199 admits does to the clock (R199). -/
theorem Timed.act_eq_some {T t : Nat} {i : Instr} {w w' : Timed} :
    w.act T t i = some w' ↔ w.mayOccur t i = true ∧ ∃ s, exec i w.state = .next s
      ∧ ¬ (setsTimer s.actions = true ∧ w.firedAt = some t)
      ∧ w' = ⟨s, t, deadlineAfter T t i s.actions w.deadline, if i = .tmo then some t else w.firedAt⟩ := by
  unfold Timed.act
  by_cases hmay : w.mayOccur t i = true
  · cases hexec : exec i w.state with
    | next s => simp [hmay, eq_comm (a := w')]
    | fault f => simp [hmay]
    | refused r => simp [hmay]
  · simp [hmay]

/-- An operation may not occur where R199 excludes its time. -/
theorem Timed.act_of_not_mayOccur {T t : Nat} {i : Instr} {w : Timed} (h : w.mayOccur t i ≠ true) :
    w.act T t i = none := if_neg h

/-- At the deadline every well-formed operation may occur, unless the timer has already fired at that instant. -/
theorem Timed.act_at_deadline {T d : Nat} {i : Instr} {w : Timed} (hs : w.state.Inv) (hstart : w.state.started = true)
    (hwf : i.wf w.state.cmdBytes = true) (hd : w.deadline = some d) (hnow : w.now ≤ d) (hfired : w.firedAt ≠ some d) :
    (w.act T d i).isSome = true := by
  obtain ⟨s, h⟩ := exec_answers hs hstart hwf
  exact Option.isSome_of_eq_some (Timed.act_eq_some.mpr
    ⟨(Timed.mayOccur_of_deadline hd).mpr ⟨hnow, le_rfl, fun _ => rfl⟩, s, h, fun hc => hfired hc.2, rfl⟩)

/-- A byte sets the deadline one byte time after itself (R100, R199). -/
theorem Timed.act_rxb {T t : Nat} {b : Byte} {w w' : Timed} (hs : w.state.Inv) (h : w.act T t (.rxb b) = some w') :
    w'.deadline = some (t + T) ∧ w'.now = t ∧ w.now ≤ t ∧ w'.firedAt = w.firedAt ∧ w'.state.Inv
      ∧ w'.state.started = true := by
  obtain ⟨hmay, s, hexec, -, rfl⟩ := Timed.act_eq_some.mp h
  have hnow : w.now ≤ t := by
    simp only [Timed.mayOccur, Bool.and_eq_true, decide_eq_true_eq] at hmay
    exact hmay.1
  have hact : .tstart ∈ s.actions := by rw [exec_actions hs hexec]; exact (mem_byteActions rfl).mpr rfl
  exact ⟨by simp [deadlineAfter, hact], rfl, hnow, rfl, exec_inv hs hexec, (exec_keeps_config hexec).2.1⟩

/-- Settles O52: the deadline is the last instant for every operation, and the only one for `TMO`. -/
theorem byteAtTheDeadlineIsInTime : Obligations.ByteAtTheDeadlineIsInTime := fun T t w w' b hT hs _ hfired h => by
  obtain ⟨hd, hnow, hle, hsame, hs', hstart'⟩ := Timed.act_rxb hs h
  have hunfired : w'.firedAt ≠ some (t + T) := fun hf => by
    have hpast := hfired _ (hsame ▸ hf)
    omega
  have hmay {t' : Nat} {i : Instr} := Timed.mayOccur_of_deadline (t := t') (i := i) hd
  refine ⟨hd, fun b' => Timed.act_at_deadline hs' hstart' rfl hd (by omega) hunfired,
    fun t' i hlate => Timed.act_of_not_mayOccur fun hc => hlate.not_ge (hmay.mp hc).2.1, fun t' => ⟨fun hsome => ?_, ?_⟩⟩
  · by_contra hne
    rw [Timed.act_of_not_mayOccur fun hc => hne ((hmay.mp hc).2.2 rfl)] at hsome
    cases hsome
  · rintro rfl
    exact Timed.act_at_deadline hs' hstart' rfl hd (by omega) hunfired

end Sys2Proof.Machine
end
